-- ==== Sys2Proof/Word.lean ====
section
/-! DEFINITION. The word types of the block (spec R7, R14). -/

namespace Sys2Proof

/-- A register of the port: 32 bits (R7). -/
abbrev Word := BitVec 32

/-- A byte of a payload window (R57). -/
abbrev Byte := BitVec 8

/-- A sample of either stream: 16 bits, two's complement (R7, R14). -/
abbrev Sample := BitVec 16

/-- A byte offset in the port's 32 KiB space, 0x0000 to 0x7FFF (R80). -/
abbrev Offset := BitVec 15

end Sys2Proof
end

