-- ==== Sys2Proof/Syntax.lean ====
section
/-! DEFINITION. The command set (spec R102): one constructor per row of the opcode table. No command has an
operand (R100). -/

namespace Sys2Proof

/-- The ten commands of R102. -/
inductive Instr where
  /-- NOP, word 0x00000000 (R120). -/
  | nop
  /-- TX_START, word 0x00000001 (R181). -/
  | txStart
  /-- TX_ABORT, word 0x00000002 (R184). -/
  | txAbort
  /-- VALIDATE_TX, word 0x00000003 (R121). -/
  | validateTx
  /-- VALIDATE_RX, word 0x00000004 (R122). -/
  | validateRx
  /-- RX_ENABLE, word 0x00000010 (R201). -/
  | rxEnable
  /-- RX_FINISH, word 0x00000011 (R260). -/
  | rxFinish
  /-- RX_ABORT, word 0x00000012 (R261). -/
  | rxAbort
  /-- RES_POP, word 0x00000013 (R128). -/
  | resPop
  /-- SOFT_RESET, word 0x000000A5 (R129). -/
  | softReset
deriving DecidableEq, Repr

end Sys2Proof
end

