-- ==== Sys2Proof/WellFormed.lean ====
section
/-! DEFINITION. Well-formedness: of a command (nothing to check, R100: no command takes an operand), of a command
word (R100: bits 31:8 must be zero) and of a HOST access (R82, R83: four bytes wide, at a multiple of four). -/

namespace Sys2Proof

/-- R100: a command has no operand, so every command is well formed. -/
def Instr.wellFormed : Instr → Bool
  | .nop => true
  | .txStart => true
  | .txAbort => true
  | .validateTx => true
  | .validateRx => true
  | .rxEnable => true
  | .rxFinish => true
  | .rxAbort => true
  | .resPop => true
  | .softReset => true

/-- R100: the operand field of a command word, bits 31:8, must be zero. -/
def operandFieldZero (w : Word) : Bool := w.toNat < 256

/-- R82, R83: a HOST access has width 4 and an offset that is a multiple of 4. -/
def accessWellFormed (width : Nat) (off : Offset) : Bool := width == 4 && off.toNat % 4 == 0

end Sys2Proof
end

