-- ==== Sys2Proof/Decode.lean ====
section
/-! DEFINITION. Decoding a command word (spec R100 to R103), total on every 32-bit word and rejecting by name, and
the encoder. A word crosses the port whole (R83, R87), so no byte order arises. -/

namespace Sys2Proof

/-- Why a word written to CMD is no command (R103). -/
inductive DecodeError where
  /-- Bits 31:8 are not all zero, whatever the OPCODE. -/
  | operandFieldNotZero (w : Word)
  /-- The OPCODE is one of the 246 values R102 does not list. -/
  | unknownOpcode (opcode : Byte)
deriving DecidableEq, Repr

/-- R100: the OPCODE field, bits 7:0. -/
def opcodeField (w : Word) : Byte := w.extractLsb' 0 8

/-- R100: the MBZ field, bits 31:8. -/
def mbzField (w : Word) : BitVec 24 := w.extractLsb' 8 24

/-- R102: the opcode map, in the table's order. -/
def opcodeMap : List (Byte × Instr) :=
  [(0x00, .nop), (0x01, .txStart), (0x02, .txAbort), (0x03, .validateTx), (0x04, .validateRx),
   (0x10, .rxEnable), (0x11, .rxFinish), (0x12, .rxAbort), (0x13, .resPop), (0xA5, .softReset)]

/-- R101: the MBZ field is checked and the OPCODE looked up. -/
def decode (w : Word) : Except DecodeError Instr :=
  if mbzField w = 0 then
    match opcodeMap.lookup (opcodeField w) with
    | some i => .ok i
    | none => .error (.unknownOpcode (opcodeField w))
  else .error (.operandFieldNotZero w)

/-- R102: the word of each command. -/
def encode : Instr → Word
  | .nop => 0x00000000
  | .txStart => 0x00000001
  | .txAbort => 0x00000002
  | .validateTx => 0x00000003
  | .validateRx => 0x00000004
  | .rxEnable => 0x00000010
  | .rxFinish => 0x00000011
  | .rxAbort => 0x00000012
  | .resPop => 0x00000013
  | .softReset => 0x000000A5

/-- The one word of an instruction whose low `nbits` bits are those of `w`, the rest 0. -/
def tableWord (nbits w : Nat) : Word := BitVec.ofNat 32 (w % 2 ^ nbits)

/-- The command `decode` reads from that word. -/
def decodeTableWord (nbits w : Nat) : Option Instr :=
  match decode (tableWord nbits w) with
  | .ok i => some i
  | .error _ => none

end Sys2Proof
end

