-- ==== Sys2Proof/Config.lean ====
section
/-! DEFINITION. What an implementation fixes (spec R6) and the values the spec leaves open. An opaque constant below
has no body: nothing can evaluate it. The functions the spec constrains (SIN, RC, SpecMag) are built over these
constants in Machine/Operands.lean. -/

namespace Sys2Proof

/-- R6: the implementation sizes, read in PARAMS0 and PARAMS1 (R39, R40). -/
structure Params where
  /-- MAXLEN: payload bytes of the TX payload RAM and of a result. -/
  maxLen : Nat
  /-- RESULT_DEPTH: entries of the result FIFO. -/
  resultDepth : Nat
  /-- SYNC_HIST_DEPTH: entries of the detector's history. -/
  syncHistDepth : Nat
deriving DecidableEq, Repr

/-- R6: the legal ranges of the implementation sizes. -/
def Params.legal (p : Params) : Bool :=
  1 ≤ p.maxLen && p.maxLen ≤ 4096 && 1 ≤ p.resultDepth && p.resultDepth ≤ 15 &&
    64 ≤ p.syncHistDepth && p.syncHistDepth ≤ 65535

/-- R6, the "this hardware" column: 256, 4, 4096. -/
def Params.thisHardware : Params := { maxLen := 256, resultDepth := 4, syncHistDepth := 4096 }

/-- R6: BASE_ADDR counted in 32 KiB units; OPEN (log 8). -/
opaque Config.baseUnit : Nat

/-- R6: the bus address of register offset 0, any 32 KiB-aligned address (log 8). -/
def Config.baseAddr : Nat := Config.baseUnit * 0x8000

/-- R20, R81: the bus address of an offset. -/
def Config.busAddr (off : Offset) : Nat := Config.baseAddr + off.toNat

/-- R302 `txram0`: byte `k` of the TX payload RAM after reset step number `r`; any value (log 3). -/
opaque Config.txRam0 : Nat → Nat → Byte

/-- R302 `mag0`: word `k` of the MAG buffer after reset step number `r`; any value (log 3). -/
opaque Config.mag0 : Nat → Nat → Word

/-- R176: the sine's value where the spec leaves it open (log 5). -/
opaque Config.sinFree : Word → Int

/-- R179: the raised cosine's value inside the fade, where the spec leaves it open (log 6). -/
opaque Config.rcFree : Nat → Nat → Nat

/-- R206: the magnitude of bin `k` where the spec leaves it open (log 7). -/
opaque Config.specMagFree : BitVec 3 → List Sample → Nat → Word

end Sys2Proof
end

