-- ==== Sys2Proof/Machine/State.lean ====
section
/-! DEFINITION. The machine's state as plain data (spec R20 to R76), the environment's inputs (R8) and the state right
after reset (R300, R301). -/

namespace Sys2Proof.Machine

open Sys2Proof

/-- No step of the block stops with a fault: R286, and 93_implementation_defined.md ("It never gets stuck"). A
BusError (R83) is an answer on the port, with the machine going on. The type has no constructor. -/
inductive Fault where
deriving DecidableEq, Repr

/-- Why a step has no meaning in the model. -/
inductive Refusal where
  /-- Raised by `exec` for a command whose meaning is not written (none is left); safe. -/
  | notModelled (mnemonic : String)
deriving DecidableEq, Repr

/-- R280: the outcome codes. -/
inductive OutcomeCode where
  | none | ok | invalidSettings | capacityExceeded | noSignal
  | frameMalformed | integrityFailed | cancelled
  /-- Reserved, never produced (R5, R280). -/
  | decryptionFailed
  /-- Reserved, never produced (R5, R280). -/
  | encodingClipped
deriving DecidableEq, Repr

/-- R56: the reasons of a result. -/
inductive Reason where
  | none | ecUnrecoverable | tolerance | crc | version | ecMismatch | length | truncated
deriving DecidableEq, Repr

/-- R29: the events of IRQ_STATUS. -/
inductive IrqEvent where
  | txDone | rxLock | rxResult | rxDone | resOvf | cmdErr
deriving DecidableEq, Repr

/-- R61: tx.state. -/
inductive TxState where
  | idle | run
deriving DecidableEq, Repr

/-- R71: rx.state. -/
inductive RxState where
  | idle | scanning | locked | demod
deriving DecidableEq, Repr

/-- R149: the error-correction levels 0, 1 and 2. -/
inductive EcLevel where
  | none | basic | advanced
deriving DecidableEq, Repr

/-- R154: a received coded bit, 0, 1 or E. -/
inductive CodedBit where
  | bit (b : Bool)
  | erased
deriving DecidableEq, Repr

/-- R61, R177: one slot of the plan. -/
structure Slot where
  tone : Nat
  on : Bool
deriving DecidableEq, Repr

/-- The settings registers, each with the width its rule defines (R23, R32 to R38, R41 to R48). -/
structure Settings where
  /-- CTRL (R23); bits 7 and 31:19 are held 0 by the write. -/
  ctrl : Word
  sampleRate : Word
  baseFreq : Word
  freqSep : Word
  bitDurMs : BitVec 16
  guardMs : BitVec 16
  fadeInMs : BitVec 16
  fadeOutMs : BitVec 16
  amplitude : BitVec 16
  redundancy : BitVec 4
  txLen : BitVec 16
  txMaxSamples : Word
  winOverlap : BitVec 8
  minSignal : Word
  errTol : BitVec 16
  maxRetries : BitVec 8
  freqHintLo : Word
  freqHintHi : Word
deriving DecidableEq, Repr

/-- R60: the TX snapshot. -/
structure TxSnap where
  fs : Nat
  m : Nat
  b : Nat
  nb : Nat
  ng : Nat
  s : Nat
  ne : Nat
  nfi : Nat
  nfo : Nat
  /-- FADE_SHAPE: true is raised cosine. -/
  shape : Bool
  /-- GUARD_MODE: true continues the carrier. -/
  gmode : Bool
  amp : BitVec 16
  /-- The phase increments of tones 0 to m (R174). -/
  inc : List Word
deriving DecidableEq, Repr

/-- R61: the TX engine. -/
structure TxEngine where
  state : TxState
  plan : List Slot
  slot : Nat
  i : Nat
  phase : Word
  abort : Bool
  count : Nat
  total : Nat
  outcome : OutcomeCode
deriving DecidableEq, Repr

/-- R70: the RX snapshot. -/
structure RxSnap where
  fs : Nat
  m : Nat
  b : Nat
  nb : Nat
  ng : Nat
  s : Nat
  base : Word
  n : Nat
  h : Nat
  wf : BitVec 3
  /-- The bins of tones 0 to m; the last is the sync tone's. -/
  bin : List Nat
  k : Nat
  /-- The preamble offsets off[0..12] (R221). -/
  off : List Nat
  ec : EcLevel
  r : Nat
  margin : Nat
  minSig : Word
  errTol : BitVec 16
deriving DecidableEq, Repr

/-- R72 hdr: the decoded header. -/
structure Header where
  hflags : BitVec 4
  len : Nat
deriving DecidableEq, Repr

/-- R72: the region record. -/
structure Region where
  t0 : Nat
  s0 : Nat
  strength : Nat
  j : Nat
  tf : Nat
  cb : List CodedBit
  erasures : Nat
  sumw : Word
  sumr : Word
  hdr : Option Header
  d : Option Nat
deriving DecidableEq, Repr

/-- R71: the RX engine. -/
structure RxEngine where
  state : RxState
  n : Nat
  x : List Sample
  t : Nat
  hist : List Word
  scanStart : Nat
  lockedAny : Bool
  reg : Option Region
  outcome : OutcomeCode
  detStrength : Nat
deriving DecidableEq, Repr

/-- R58: an entry of the result FIFO. -/
structure ResultEntry where
  code : OutcomeCode
  reason : Reason
  hflags : BitVec 4
  len : BitVec 16
  start : Nat
  stop : Nat
  freq : Word
  corrected : Word
  erasures : Word
  strength : Word
  symbols : Word
  sumw : Word
  sumr : Word
  payload : Option (List Byte)
deriving DecidableEq, Repr

/-- R8: what the environment lets happen next; each entry is at most one step of one agent (log 1). -/
inductive Input where
  /-- HOST MemWrite(off, width, v) (R82, R83); width in bytes. -/
  | hostWrite (off : Offset) (width : Nat) (v : Word)
  /-- HOST MemRead(off, width) (R82, R83). -/
  | hostRead (off : Offset) (width : Nat)
  /-- The sink is ready to take one sample: a TX-EMIT step where one is enabled (R183). -/
  | sinkReady
  /-- The TX engine's own turn, with no sink: a TX-CANCEL step where one is enabled (R185). -/
  | txTurn
  /-- The source offers a sample: an RX-SAMPLE step (R207). -/
  | sourceOffers (v : Sample)
  /-- `rst_n` is asserted: the reset step (R300). -/
  | resetAssert
  /-- `rst_n` is released (R300). -/
  | resetRelease
deriving DecidableEq, Repr

/-- The port's answer to the HOST access of the last step (R10, R83; log 2). -/
inductive PortAnswer where
  /-- The last step was no HOST access. -/
  | none
  /-- A write completed. -/
  | written
  /-- A read returned this value. -/
  | data (v : Word)
  /-- BusError on a read, with its data (0, R83). -/
  | readError (v : Word)
  /-- BusError on a write. -/
  | writeError
deriving DecidableEq, Repr

/-- A memory as (address, value) pairs, in the canonical form of `Memory.wf`: what is listed has been written since
the last reset, and what is not listed has no value there (log 3). -/
abbrev Memory (w : Nat) := List (Nat × BitVec w)

/-- Everything the spec gives the machine, and the model's own fields `inputs`, `port`, `txStream`, `resets`. -/
structure State where
  /-- PARAMS0 and PARAMS1 (R39, R40). -/
  params : Params
  /-- CTRL and the registers 0x020 to 0x064 but PARAMS1. -/
  settings : Settings
  /-- IRQ_STATUS bits 5:0 (R29). -/
  irqStatus : BitVec 6
  /-- IRQ_ENABLE bits 5:0 (R30). -/
  irqEnable : BitVec 6
  /-- ISSUES (R31). -/
  issues : Word
  /-- STATUS.CMD_ERR (R27, R28). -/
  cmdErr : Bool
  /-- STATUS.RES_OVF (R27, R28). -/
  resOvf : Bool
  tx : TxEngine
  /-- tsnap (R60). -/
  txSnap : Option TxSnap
  rx : RxEngine
  /-- rsnap (R70). -/
  rxSnap : Option RxSnap
  /-- The result FIFO, oldest first (R58). -/
  fifo : List ResultEntry
  /-- TX payload RAM: byte index and byte (R57). -/
  txRam : List Host.Cell
  /-- MAG buffer: word index and word (R57). -/
  mag : Memory 32
  /-- The level of `rst_n`: true while asserted (R300). -/
  rstAsserted : Bool
  /-- Reset steps made; the free memory contents depend on it (the model's own, log 3). -/
  resets : Nat
  /-- The environment's schedule, next first (the model's own, log 1). -/
  inputs : List Input
  /-- The port's answer in the last step (the model's own, log 2). -/
  port : PortAnswer
  /-- The samples handed to the sink, oldest first (the model's own, log 2). -/
  txStream : List Sample
deriving DecidableEq, Repr

/-- R20, R301: the settings' reset values. -/
def Settings.reset : Settings where
  ctrl := 0x00004510
  sampleRate := 44100
  baseFreq := 19000
  freqSep := 1000
  bitDurMs := 50
  guardMs := 0
  fadeInMs := 5
  fadeOutMs := 5
  amplitude := 9830
  redundancy := 3
  txLen := 0
  txMaxSamples := 0
  winOverlap := 128
  minSignal := 0
  errTol := 65535
  maxRetries := 0
  freqHintLo := 0
  freqHintHi := 0

/-- R61, R300: the TX engine after reset. -/
def TxEngine.reset : TxEngine where
  state := .idle
  plan := []
  slot := 0
  i := 0
  phase := 0
  abort := false
  count := 0
  total := 0
  outcome := .none

/-- R71, R300: the RX engine after reset. -/
def RxEngine.reset : RxEngine where
  state := .idle
  n := 0
  x := []
  t := 0
  hist := []
  scanStart := 0
  lockedAny := false
  reg := none
  outcome := .none
  detStrength := 0

/-- R300, R301: the machine right after reset, `rst_n` released; both memories list nothing, so each of their values
is free (log 3, log 4). -/
def State.reset : State where
  params := Params.thisHardware
  settings := Settings.reset
  irqStatus := 0
  irqEnable := 0
  issues := 0
  cmdErr := false
  resOvf := false
  tx := TxEngine.reset
  txSnap := none
  rx := RxEngine.reset
  rxSnap := none
  fifo := []
  txRam := []
  mag := []
  rstAsserted := false
  resets := 0
  inputs := []
  port := .none
  txStream := []

end Sys2Proof.Machine
end

