-- ==== Sys2Proof/Machine/Operands.lean ====
section
/-! DEFINITION. The operands of the commands: arithmetic of the rules (R12, R15), the configuration functions (R176,
R179, R206), the fields of CTRL (R23) and the quantities derived from the settings registers (R172 to R174, R202,
R203, R221, R231). -/

namespace Sys2Proof.Machine

open Sys2Proof

/-- R12: the ceiling of `a / b`. -/
def cdiv (a b : Nat) : Nat := (a + b - 1) / b

/-- R12: `sat32`. -/
def sat32 (v : Nat) : Nat := min v (2 ^ 32 - 1)

/-- R12: `trunc_32`, as the word a register shows. -/
def trunc32 (v : Nat) : Word := BitVec.ofNat 32 v

/-- R233: a saturating sum kept in 32 bits. -/
def satAdd (a : Word) (v : Nat) : Word := BitVec.ofNat 32 (sat32 (a.toNat + v))

/-- R15: the samples in `ms` milliseconds at `fs` Hz. -/
def ms2s (fs ms : Nat) : Nat := ms * fs / 1000

/-! The configuration functions. Each is built over an opaque constant of Config so that it has the stated properties
for every value of the constant, and so that every function with those properties is obtained for some value. -/

/-- R176 SIN: the fixed points of (S2) and (S3), and elsewhere any value of the range of (S1) (log 5). -/
def sine (p : Word) : Int :=
  if p = 0x00000000 ∨ p = 0x80000000 then 0
  else if p = 0x40000000 then 32767
  else if p = 0xC0000000 then -32767
  else max (-32767) (min 32767 (Config.sinFree p))

/-- The greatest of 0 and the open values at 1, ..., `p`, each held to 32768: any monotone function of `p`. -/
def cosineRise (q : Nat) : Nat → Nat
  | 0 => 0
  | p + 1 => max (cosineRise q p) (min 32768 (Config.rcFree (p + 1) q))

/-- R179 RC: the end points of (C2), and between them any monotone values of the range of (C1) (log 6). -/
def raisedCosine (p q : Nat) : Nat := if q ≤ p then 32768 else cosineRise q p

/-- R206 SpecMag, bin by bin: 0 for silence (M2), else any 32-bit value (M1), a function of the window code, the
samples and the bin (M3) (log 7). -/
def specMag (wf : BitVec 3) (x : List Sample) (k : Nat) : Word :=
  if x.all (· == 0) then 0 else Config.specMagFree wf x k

/-! The fields of CTRL (R23). -/

def Settings.guardMode (st : Settings) : Bool := st.ctrl.getLsbD 0
def Settings.fadeShape (st : Settings) : Bool := st.ctrl.getLsbD 1
def Settings.ecField (st : Settings) : BitVec 2 := st.ctrl.extractLsb' 2 2
def Settings.tonesLog2 (st : Settings) : Nat := (st.ctrl.extractLsb' 4 3).toNat
def Settings.sensitivity (st : Settings) : BitVec 2 := st.ctrl.extractLsb' 8 2
def Settings.winFunc (st : Settings) : BitVec 3 := st.ctrl.extractLsb' 10 3
def Settings.winSize (st : Settings) : Nat := (st.ctrl.extractLsb' 13 3).toNat
def Settings.magFreeze (st : Settings) : Bool := st.ctrl.getLsbD 16
def Settings.hdrEncrypted (st : Settings) : Bool := st.ctrl.getLsbD 17
def Settings.hdrCompressed (st : Settings) : Bool := st.ctrl.getLsbD 18

/-- R23: the bits of CTRL that hold a field; bits 7 and 31:19 are reserved. -/
def ctrlMask : Word := 0x0007FF7F

/-- R106, R149: the level an EC_LEVEL field stands for; 3 is reserved and has none. -/
def ecLevelOf (f : BitVec 2) : Option EcLevel :=
  if f = 0 then some .none else if f = 1 then some .basic else if f = 2 then some .advanced else none

/-- R106: the two-bit code of a level, as CTRL and the header carry it. -/
def EcLevel.code : EcLevel → BitVec 2
  | .none => 0
  | .basic => 1
  | .advanced => 2

/-- R231: the sensitivity margin in eighths; SENSITIVITY 3 is reserved and has none. -/
def marginOf (f : BitVec 2) : Option Nat :=
  if f = 0 then some 8 else if f = 1 then some 4 else if f = 2 then some 2 else none

/-! Derived quantities, each from the registers as they stand. -/

/-- FS (R32). -/
def Settings.fs (st : Settings) : Nat := st.sampleRate.toNat
/-- TONES_LOG2 is legal (R123). -/
def Settings.tonesOk (st : Settings) : Bool := 1 ≤ st.tonesLog2 && st.tonesLog2 ≤ 4
/-- M, the data tones (R172). -/
def Settings.m (st : Settings) : Nat := 2 ^ st.tonesLog2
/-- Nb, the hold samples of a slot (R172). -/
def Settings.nb (st : Settings) : Nat := ms2s st.fs st.bitDurMs.toNat
/-- Ng, the guard samples of a slot (R172). -/
def Settings.ng (st : Settings) : Nat := ms2s st.fs st.guardMs.toNat
/-- S, the samples of a slot (R172). -/
def Settings.slotLen (st : Settings) : Nat := st.nb + st.ng
/-- Ne, the envelope span (R172). -/
def Settings.ne (st : Settings) : Nat := if st.guardMode then st.slotLen else st.nb
/-- Nfi, the fade-in samples (R172). -/
def Settings.nfi (st : Settings) : Nat := ms2s st.fs st.fadeInMs.toNat
/-- Nfo, the fade-out samples (R172). -/
def Settings.nfo (st : Settings) : Nat := ms2s st.fs st.fadeOutMs.toNat
/-- R173: the frequency of tone `k`; the sync tone is tone M. -/
def Settings.tone (st : Settings) (k : Nat) : Nat := st.baseFreq.toNat + k * st.freqSep.toNat
/-- N, the analysis window (R202). -/
def Settings.winN (st : Settings) : Nat := 2 ^ (8 + st.winSize)
/-- H, the hop (R202, R209). -/
def Settings.hop (st : Settings) : Nat := st.winN - st.winN * st.winOverlap.toNat / 256

/-- R174: the phase increment of a frequency. -/
def phaseInc (fs f : Nat) : Word := trunc32 (f * 2 ^ 32 / fs)

/-- R203: the FFT bin of a frequency, the nearest with halves rounded up. -/
def binOf (fs n f : Nat) : Nat := (2 * f * n + fs) / (2 * fs)

/-- R221: the frame of preamble slot `i`, counted from the candidate's start frame. -/
def slotFrame (s h i : Nat) : Nat := cdiv (i * s) h

/-- R172, R174: the TX snapshot of the registers. -/
def txSnapOf (st : Settings) : TxSnap where
  fs := st.fs
  m := st.m
  b := st.tonesLog2
  nb := st.nb
  ng := st.ng
  s := st.slotLen
  ne := st.ne
  nfi := st.nfi
  nfo := st.nfo
  shape := st.fadeShape
  gmode := st.guardMode
  amp := st.amplitude
  inc := (List.range (st.m + 1)).map (fun k => phaseInc st.fs (st.tone k))

/-- R202: the RX snapshot of the registers, at a level and a margin that their fields stand for. -/
def rxSnapOf (st : Settings) (ec : EcLevel) (margin : Nat) : RxSnap where
  fs := st.fs
  m := st.m
  b := st.tonesLog2
  nb := st.nb
  ng := st.ng
  s := st.slotLen
  base := st.baseFreq
  n := st.winN
  h := st.hop
  wf := st.winFunc
  bin := (List.range (st.m + 1)).map (fun k => binOf st.fs st.winN (st.tone k))
  k := slotFrame st.slotLen st.hop 12
  off := (List.range 13).map (slotFrame st.slotLen st.hop)
  ec := ec
  r := st.redundancy.toNat
  margin := margin
  minSig := st.minSignal
  errTol := st.errTol

/-- R202: the RX snapshot; none where EC_LEVEL or SENSITIVITY is reserved (validation refuses those first, R201). -/
def rxSnap? (st : Settings) : Option RxSnap :=
  match ecLevelOf st.ecField, marginOf st.sensitivity with
  | some ec, some margin => some (rxSnapOf st ec margin)
  | _, _ => none

end Sys2Proof.Machine
end

