-- ==== Sys2Proof/Machine/Flags.lean ====
section
/-! DEFINITION. Every flag the spec computes: ISSUES (R31, R123 to R125), STATUS (R27), the interrupt output (R283),
RES_STATUS (R56), and the codes of the enumerations (R56, R280, R282). -/

namespace Sys2Proof.Machine

open Sys2Proof

/-- R280: the 4-bit code of an outcome. -/
def OutcomeCode.code : OutcomeCode → BitVec 4
  | .none => 0
  | .ok => 1
  | .invalidSettings => 2
  | .capacityExceeded => 3
  | .noSignal => 4
  | .frameMalformed => 5
  | .integrityFailed => 6
  | .cancelled => 7
  | .decryptionFailed => 8
  | .encodingClipped => 9

/-- R56: the 4-bit code of a reason. -/
def Reason.code : Reason → BitVec 4
  | .none => 0
  | .ecUnrecoverable => 1
  | .tolerance => 2
  | .crc => 3
  | .version => 4
  | .ecMismatch => 5
  | .length => 6
  | .truncated => 7

/-- R29, R282: the bit of an event in IRQ_STATUS. -/
def IrqEvent.bit : IrqEvent → Nat
  | .txDone => 0
  | .rxLock => 1
  | .rxResult => 2
  | .rxDone => 3
  | .resOvf => 4
  | .cmdErr => 5

/-- R27: RX_STATE. -/
def RxState.code : RxState → BitVec 3
  | .idle => 0
  | .scanning => 1
  | .locked => 2
  | .demod => 3

/-- R27, R61: TX_STATE. -/
def TxEngine.stateCode (tx : TxEngine) : BitVec 2 :=
  match tx.state with
  | .idle => 0
  | .run => if tx.slot < 13 then 1 else 2

/-! The conditions of ISSUES, one per bit (R31). -/

/-- Bit 0, AMPLITUDE (R124). -/
def issueAmplitude (st : Settings) : Bool := 32768 < st.amplitude.toNat
/-- Bit 1, BIT_DURATION (R123). -/
def issueBitDuration (st : Settings) : Bool := st.nb == 0
/-- Bit 2, NYQUIST (R123): the highest tone is the sync tone, index M. -/
def issueNyquist (st : Settings) : Bool := st.fs == 0 || (st.tonesOk && st.fs ≤ 2 * st.tone st.m)
/-- Bit 3, EC_LEVEL (R123). -/
def issueEcLevel (st : Settings) : Bool := st.ecField == 3
/-- Bit 4, TONES (R123). -/
def issueTones (st : Settings) : Bool := !st.tonesOk
/-- Bit 5, SENSITIVITY (R125). -/
def issueSensitivity (st : Settings) : Bool := st.sensitivity == 3
/-- Bit 6, WIN_FUNC (R125). -/
def issueWinFunc (st : Settings) : Bool := 3 < st.winFunc.toNat
/-- Bit 7, WIN_SIZE (R125). -/
def issueWinSize (st : Settings) : Bool := 4 < st.winSize
/-- Bit 8, REDUNDANCY (R123). -/
def issueRedundancy (st : Settings) : Bool := st.ecField == 1 && st.redundancy.toNat % 2 == 0
/-- Bit 9, FREQ_SEP (R123). -/
def issueFreqSep (st : Settings) : Bool := st.freqSep == 0
/-- Bit 10, FADE (R124). -/
def issueFade (st : Settings) : Bool := st.ne < st.nfi + st.nfo
/-- Bit 11, TX_LENGTH (R124). -/
def issueTxLength (p : Params) (st : Settings) : Bool := p.maxLen < st.txLen.toNat
/-- Bit 12, WINDOW_FIT (R125). -/
def issueWindowFit (st : Settings) : Bool := st.winSize ≤ 4 && st.nb < st.winN + 2 * st.hop
/-- Bit 13, BIN_COLLISION (R125): two adjacent tones, the sync tone among them, in one bin. -/
def issueBinCollision (st : Settings) : Bool :=
  st.winSize ≤ 4 && st.tonesOk && 0 < st.fs &&
    (List.range st.m).any (fun k =>
      binOf st.fs st.winN (st.tone k) == binOf st.fs st.winN (st.tone (k + 1)))
/-- Bit 14, HIST_DEPTH (R125). -/
def issueHistDepth (p : Params) (st : Settings) : Bool :=
  st.winSize ≤ 4 && 0 < st.slotLen && p.syncHistDepth < slotFrame st.slotLen st.hop 12 + 2

/-- A word with bit `k` set where `c` holds. -/
def bitIf (c : Bool) (k : Nat) : Word := if c then BitVec.twoPow 32 k else 0

/-- R123: `Issues_common()`. -/
def issuesCommon (st : Settings) : Word :=
  bitIf (issueBitDuration st) 1 ||| bitIf (issueNyquist st) 2 ||| bitIf (issueEcLevel st) 3 |||
    bitIf (issueTones st) 4 ||| bitIf (issueRedundancy st) 8 ||| bitIf (issueFreqSep st) 9

/-- R124: `Issues_TX()`; KIND, bit 31, is 0. -/
def issuesTx (p : Params) (st : Settings) : Word :=
  issuesCommon st ||| bitIf (issueAmplitude st) 0 ||| bitIf (issueFade st) 10 |||
    bitIf (issueTxLength p st) 11

/-- R125: `Issues_RX()`; KIND, bit 31, is 1. -/
def issuesRx (p : Params) (st : Settings) : Word :=
  issuesCommon st ||| bitIf (issueSensitivity st) 5 ||| bitIf (issueWinFunc st) 6 |||
    bitIf (issueWinSize st) 7 ||| bitIf (issueWindowFit st) 12 ||| bitIf (issueBinCollision st) 13 |||
    bitIf (issueHistDepth p st) 14 ||| bitIf true 31

/-- R181, R201: some issue bit other than KIND is set (`I[30:0] != 0`). -/
def anyIssue (i : Word) : Bool := i.extractLsb' 0 31 != 0

/-- R27: the STATUS word. -/
def State.statusWord (s : State) : Word :=
  0#8 ++ BitVec.ofNat 4 s.fifo.length ++ 0#2 ++ BitVec.ofBool s.resOvf ++ BitVec.ofBool s.cmdErr ++
    s.rx.outcome.code ++ s.tx.outcome.code ++ 0#1 ++ s.rx.state.code ++ 0#1 ++ BitVec.ofBool s.tx.abort ++
    s.tx.stateCode

/-- R283: the interrupt output. -/
def State.irq (s : State) : Bool := (s.irqStatus &&& s.irqEnable) != 0

/-- R56: RES_STATUS of a head entry. -/
def resStatusOf (e : ResultEntry) : Word :=
  0#12 ++ e.hflags ++ 0#2 ++ BitVec.ofBool (e.corrected != 0) ++ BitVec.ofBool (e.erasures != 0) ++
    e.reason.code ++ e.code.code ++ 0#3 ++ 1#1

/-- R39: PARAMS0. -/
def params0Word (p : Params) : Word := 0#12 ++ BitVec.ofNat 4 p.resultDepth ++ BitVec.ofNat 16 p.maxLen

/-- R40: PARAMS1. -/
def params1Word (p : Params) : Word := 0#16 ++ BitVec.ofNat 16 p.syncHistDepth

end Sys2Proof.Machine
end

