-- ==== Sys2Proof/Machine/Ops.lean ====
section
/-! DEFINITION. The shared operations: the memories (R57, R302), `set_irq` (R282), the refusal of a command (R104),
`push_result` (R258) and the reset step (R300).

The block takes no exception and returns from none (R286 to R288): an event sets a bit of IRQ_STATUS (`setIrq`), an
error of a command is `refuse` or an outcome code, and an interrupt ends when the host clears its bits. -/

namespace Sys2Proof.Machine

open Sys2Proof

/-! A memory lists what has been written since the last reset, at strictly rising addresses. -/

/-- The canonical form: the addresses rise strictly. -/
def Memory.wf {w : Nat} : Memory w → Bool
  | [] => true
  | [_] => true
  | (a, _) :: (b, v) :: rest => decide (a < b) && Memory.wf ((b, v) :: rest)

/-- The value listed at an address; none where nothing has been written since the last reset. -/
def Memory.read {w : Nat} (m : Memory w) (a : Nat) : Option (BitVec w) := m.lookup a

/-- Write one value, keeping the addresses rising. -/
def Memory.write {w : Nat} (m : Memory w) (a : Nat) (v : BitVec w) : Memory w :=
  match m with
  | [] => [(a, v)]
  | (b, u) :: rest =>
    if a < b then (a, v) :: (b, u) :: rest
    else if a = b then (a, v) :: rest
    else (b, u) :: Memory.write rest a v

/-- R57, R302: byte `k` of the TX payload RAM; one not written since the last reset is any value. -/
def State.txByte (s : State) (k : Nat) : Byte := (Memory.read s.txRam k).getD (Config.txRam0 s.resets k)

/-- R57, R302: word `k` of the MAG buffer; one not stored since the last reset is any value. -/
def State.magWord (s : State) (k : Nat) : Word := (Memory.read s.mag k).getD (Config.mag0 s.resets k)

/-- R85: byte `k` of the TX payload RAM takes `v`; bytes at or above MAXLEN do not exist. -/
def State.setTxByte (s : State) (k : Nat) (v : Byte) : State :=
  if k < s.params.maxLen then { s with txRam := Memory.write s.txRam k v } else s

/-- R282: `set_irq(BIT)` sets the event's bit of IRQ_STATUS and does nothing else. -/
def State.setIrq (s : State) (e : IrqEvent) : State :=
  { s with irqStatus := s.irqStatus ||| BitVec.twoPow 6 e.bit }

/-- R104: a refused command sets STATUS.CMD_ERR and the CMD_ERR event and changes nothing else. -/
def State.refuse (s : State) : State := State.setIrq { s with cmdErr := true } .cmdErr

/-- R258: `push_result(res)`: append, or drop the new result where the FIFO is full. -/
def State.pushResult (s : State) (res : ResultEntry) : State :=
  if s.fifo.length < s.params.resultDepth then State.setIrq { s with fifo := s.fifo ++ [res] } .rxResult
  else State.setIrq { s with resOvf := true } .resOvf

/-- R300: the reset step. The parameters are the implementation's; the memories list nothing, so their values are
free again, and new ones (R302, log 3). The model's own `inputs`, `port` and `txStream` stand. -/
def State.hardReset (s : State) : State :=
  { State.reset with
    params := s.params, resets := s.resets + 1, inputs := s.inputs, port := s.port, txStream := s.txStream,
    rstAsserted := true }

end Sys2Proof.Machine
end

