-- ==== Sys2Proof/Machine/Codec.lean ====
section
/-! DEFINITION. The frame codec and the error-correction codec (spec R140 to R159), all pure functions. -/

namespace Sys2Proof.Machine

open Sys2Proof

/-! Bits and bytes (R145). -/

/-- R145: the bits of a byte, most significant first. -/
def byteBits (x : Byte) : List Bool := (List.range 8).map (fun k => x.getLsbD (7 - k))

/-- R145: the bits of a byte sequence, in byte order. -/
def bitsOf (bytes : List Byte) : List Bool := bytes.flatMap byteBits

/-- R250: the byte of a bit sequence, its first bit being the most significant. -/
def byteOfBits (l : List Bool) : Byte := l.foldl (fun acc b => (acc <<< 1) ||| (BitVec.ofBool b).setWidth 8) 0

/-- R250: the bytes of a bit sequence, eight bits each. -/
def bytesOf : List Bool → List Byte
  | a :: b :: c :: d :: e :: f :: g :: h :: rest => byteOfBits [a, b, c, d, e, f, g, h] :: bytesOf rest
  | _ => []

/-! CRC-16/CCITT-FALSE (R143). -/

/-- R143: one bit of the CRC. -/
def crcBit (c : BitVec 16) : BitVec 16 := if c.getLsbD 15 then (c <<< 1) ^^^ 0x1021 else c <<< 1

/-- R143: one byte of the CRC. -/
def crcByte (c : BitVec 16) (x : Byte) : BitVec 16 :=
  (List.range 8).foldl (fun c _ => crcBit c) (c ^^^ (x.setWidth 16 <<< 8))

/-- R143: the CRC of a byte sequence. -/
def crc16 (bytes : List Byte) : BitVec 16 := bytes.foldl crcByte 0xFFFF

/-! The frame (R141, R144). -/

/-- R141: header byte h0: VERSION 1, the level, the compressed and encrypted flags. -/
def headerByte0 (ec : EcLevel) (compressed encrypted : Bool) : Byte :=
  1#4 ++ ec.code ++ BitVec.ofBool compressed ++ BitVec.ofBool encrypted

/-- R141: the header's three bytes for a payload of `len` bytes. -/
def headerBytes (ec : EcLevel) (compressed encrypted : Bool) (len : Nat) : List Byte :=
  [headerByte0 ec compressed encrypted, BitVec.ofNat 8 (len / 256), BitVec.ofNat 8 (len % 256)]

/-- R144: bytes with their CRC appended, most significant byte first. -/
def withCrc (bytes : List Byte) : List Byte :=
  bytes ++ [(crc16 bytes).extractLsb' 8 8, (crc16 bytes).extractLsb' 0 8]

/-- R144: the frame body. -/
def frameBody (ec : EcLevel) (compressed encrypted : Bool) (payload : List Byte) : List Byte :=
  withCrc (headerBytes ec compressed encrypted payload.length ++ payload)

/-- R148: the preamble, PRE[0] first. -/
def preamble : List Bool :=
  [true, true, true, true, true, false, false, true, true, false, true, false, true]

/-! Error-correction encoding (R149 to R153). -/

/-- R152: the extended Hamming codeword c1 .. c8 of a nibble, `a` first. -/
def codeword (a b c d : Bool) : List Bool :=
  let c1 := a ^^ b ^^ d
  let c2 := a ^^ c ^^ d
  let c4 := b ^^ c ^^ d
  [c1, c2, a, c4, b, c, d, c1 ^^ c2 ^^ a ^^ c4 ^^ b ^^ c ^^ d]

/-- R152: level advanced, nibble by nibble; a bit sequence holds whole nibbles. -/
def encodeAdvanced : List Bool → List Bool
  | a :: b :: c :: d :: rest => codeword a b c d ++ encodeAdvanced rest
  | _ => []

/-- R150 to R152: `EC_encode(level, R, F)`. -/
def ecEncode (ec : EcLevel) (r : Nat) (f : List Bool) : List Bool :=
  match ec with
  | .none => f
  | .basic => f.flatMap (List.replicate r)
  | .advanced => encodeAdvanced f

/-- R153: the coded length of `n` body bits. -/
def codedLen (ec : EcLevel) (r n : Nat) : Nat :=
  match ec with
  | .none => n
  | .basic => r * n
  | .advanced => 2 * n

/-! Error-correction decoding (R154 to R158). -/

/-- R154: what decoding returns. -/
inductive EcResult where
  | decoded (bits : List Bool) (corrected : Nat)
  | unrecoverable (corrected : Nat)
deriving DecidableEq, Repr

/-- Put decoded bits before those of the rest of the body. -/
def consBits (bits : List Bool) : EcResult → EcResult
  | .decoded rest c => .decoded (bits ++ rest) c
  | .unrecoverable c => .unrecoverable c

/-- The value of a coded bit; none for E. -/
def CodedBit.known : CodedBit → Option Bool
  | .bit b => some b
  | .erased => none

/-- R157: an erased bit is decoded as 0. -/
def CodedBit.orZero : CodedBit → Bool
  | .bit b => b
  | .erased => false

/-- R155: level none over the first `n` coded bits: any E is unrecoverable. -/
def decodeNone (cb : List CodedBit) : EcResult :=
  match cb.mapM CodedBit.known with
  | some bits => .decoded bits 0
  | none => .unrecoverable 0

/-- R156: level basic, `g` groups of `r` copies each, with the corrections made so far. -/
def decodeBasic (r : Nat) : Nat → List CodedBit → Nat → EcResult
  | 0, _, corrected => .decoded [] corrected
  | g + 1, cb, corrected =>
    let n1 := (cb.take r).count (.bit true)
    let n0 := (cb.take r).count (.bit false)
    if n1 = n0 then .unrecoverable corrected
    else consBits [decide (n0 < n1)] (decodeBasic r g (cb.drop r) (corrected + min n1 n0))

/-- R157: bit `k` (1 to 8) of a block, as 0 or 1. -/
def blockBit (blk : List Bool) (k : Nat) : Bool := blk.getD (k - 1) false

/-- R157: the syndrome of a block. -/
def syndrome (blk : List Bool) : Nat :=
  let c := blockBit blk
  (c 1 ^^ c 3 ^^ c 5 ^^ c 7).toNat + 2 * (c 2 ^^ c 3 ^^ c 6 ^^ c 7).toNat +
    4 * (c 4 ^^ c 5 ^^ c 6 ^^ c 7).toNat

/-- R157: the overall parity of a block. -/
def blockParity (blk : List Bool) : Bool :=
  let c := blockBit blk
  c 1 ^^ c 2 ^^ c 3 ^^ c 4 ^^ c 5 ^^ c 6 ^^ c 7 ^^ c 8

/-- R157: the block with its bit `k` (1 to 8) flipped. -/
def flipBit (blk : List Bool) (k : Nat) : List Bool := blk.set (k - 1) (!blockBit blk k)

/-- R157: the data bits c3, c5, c6, c7 of a block. -/
def blockData (blk : List Bool) : List Bool :=
  [blockBit blk 3, blockBit blk 5, blockBit blk 6, blockBit blk 7]

/-- R157: one block: none for a double error, else the nibble and how many bits were corrected. -/
def decodeBlock (blk : List Bool) : Option (List Bool × Nat) :=
  if syndrome blk ≠ 0 ∧ blockParity blk = false then none
  else if blockParity blk then
    some (blockData (flipBit blk (if syndrome blk ≠ 0 then syndrome blk else 8)), 1)
  else some (blockData blk, 0)

/-- R157: level advanced, block by block, with the corrections made so far. -/
def decodeAdvanced : Nat → List CodedBit → Nat → EcResult
  | 0, _, corrected => .decoded [] corrected
  | blocks + 1, cb, corrected =>
    match decodeBlock ((cb.take 8).map CodedBit.orZero) with
    | none => .unrecoverable corrected
    | some (nibble, c) => consBits nibble (decodeAdvanced blocks (cb.drop 8) (corrected + c))

/-- R154: `EC_decode` of `n` body bits from their coded bits. -/
def ecDecode (ec : EcLevel) (r n : Nat) (cb : List CodedBit) : EcResult :=
  match ec with
  | .none => decodeNone cb
  | .basic => decodeBasic r n cb 0
  | .advanced => decodeAdvanced (n / 4) cb 0

end Sys2Proof.Machine
end

