-- ==== Sys2Proof/Machine/Assembler.lean ====
section
/-! DEFINITION. The frame assembler, the end of a region and the session commands RX_FINISH and RX_ABORT (spec R250 to
R263). -/

namespace Sys2Proof.Machine

open Sys2Proof

/-- R250: what assembly does with the region: goes on with it, or ends it with a code, a reason, the corrected count
and, for OK, the payload. -/
inductive RegionStep where
  | goOn (r : Region)
  | finish (r : Region) (code : OutcomeCode) (reason : Reason) (corrected : Nat) (payload : Option (List Byte))
deriving DecidableEq, Repr

/-- R250: the length field of 24 decoded header bits. -/
def headerLen (hb : List Bool) : Nat :=
  256 * (byteOfBits ((hb.drop 8).take 8)).toNat + (byteOfBits ((hb.drop 16).take 8)).toNat

/-- R250, R251: the header stage, once the header's coded bits are in. -/
def headerStage (maxLen : Nat) (sn : RxSnap) (r : Region) : RegionStep :=
  match ecDecode sn.ec sn.r 24 (r.cb.take (codedLen sn.ec sn.r 24)) with
  | .unrecoverable hc => .finish r .integrityFailed .ecUnrecoverable hc none
  | .decoded hb hc =>
    let h0 := byteOfBits (hb.take 8)
    let len := headerLen hb
    let r1 := { r with hdr := some { hflags := h0.extractLsb' 0 4, len := len } }
    if h0.extractLsb' 4 4 ≠ 1 then .finish r1 .frameMalformed .version hc none
    else if h0.extractLsb' 2 2 ≠ sn.ec.code then .finish r1 .frameMalformed .ecMismatch hc none
    else if maxLen < len then .finish r1 .frameMalformed .length hc none
    else .goOn { r1 with d := some (cdiv (codedLen sn.ec sn.r (40 + 8 * len)) sn.b) }

/-- R250, R253: the body stage, once the region's last symbol is in, for a header length `len`. -/
def bodyCheck (sn : RxSnap) (r : Region) (len : Nat) : RegionStep :=
  match ecDecode sn.ec sn.r (40 + 8 * len) (r.cb.take (codedLen sn.ec sn.r (40 + 8 * len))) with
  | .unrecoverable c => .finish r .integrityFailed .ecUnrecoverable c none
  | .decoded fb c =>
    let y := bytesOf fb
    if sn.errTol.toNat < c then .finish r .integrityFailed .tolerance c none
    else if crc16 (y.take (3 + len)) ≠ y.getD (3 + len) 0 ++ y.getD (4 + len) 0 then
      .finish r .integrityFailed .crc c none
    else .finish r .ok .none c (some ((y.drop 3).take len))

/-- R250: the body stage waits for the region's last symbol. -/
def bodyStage (sn : RxSnap) (r : Region) : RegionStep :=
  match r.hdr, r.d with
  | some hdr, some d => if r.j < d then .goOn r else bodyCheck sn r hdr.len
  | _, _ => .goOn r

/-- R250: `Assemble()` on the region. -/
def assembleRegion (maxLen : Nat) (sn : RxSnap) (r : Region) : RegionStep :=
  match r.hdr with
  | some _ => bodyStage sn r
  | none =>
    if r.j * sn.b < codedLen sn.ec sn.r 24 then .goOn r
    else
      match headerStage maxLen sn r with
      | .goOn r1 => bodyStage sn r1
      | done => done

/-- R256: the result entry of a region. -/
def resultOf (sn : RxSnap) (r : Region) (code : OutcomeCode) (reason : Reason) (corrected : Nat)
    (payload : Option (List Byte)) : ResultEntry where
  code := code
  reason := reason
  hflags := match r.hdr with
    | some h => h.hflags
    | none => 0
  len := match r.hdr with
    | some h => BitVec.ofNat 16 h.len
    | none => 0
  start := r.s0
  stop := r.s0 + (13 + r.j) * sn.s
  freq := sn.base
  corrected := trunc32 (sat32 corrected)
  erasures := trunc32 (sat32 r.erasures)
  strength := trunc32 (sat32 r.strength)
  symbols := trunc32 (sat32 r.j)
  sumw := r.sumw
  sumr := r.sumr
  payload := if code = .ok then payload else none

/-- R256: `End(code, reason, c)`: push the result and return the detector to scanning, after the region's end. -/
def State.endRegion (s : State) (sn : RxSnap) (r : Region) (code : OutcomeCode) (reason : Reason)
    (corrected : Nat) (payload : Option (List Byte)) : State :=
  let s1 := s.pushResult (resultOf sn r code reason corrected payload)
  { s1 with
    rx := { s1.rx with
      scanStart := cdiv (r.s0 + (13 + r.j) * sn.s) sn.h
      reg := none
      state := .scanning } }

/-- R250: `Assemble()` for the region `r` just demodulated. -/
def State.assemble (s : State) (sn : RxSnap) (r : Region) : State :=
  match assembleRegion s.params.maxLen sn r with
  | .goOn r1 => { s with rx := { s.rx with reg := some r1 } }
  | .finish r1 code reason c payload => s.endRegion sn r1 code reason c payload

/-- R260: a region in progress at the end of the session becomes a TRUNCATED result. A LOCKED or DEMOD state without
its region or snapshot is no state of a run of the block (log 10). -/
def State.truncateRegion (s : State) : State :=
  if s.rx.state = .locked ∨ s.rx.state = .demod then
    match s.rxSnap, s.rx.reg with
    | some sn, some r => s.endRegion sn r .frameMalformed .truncated 0 none
    | _, _ => s
  else s

/-- R260: the session ends, with OK where it locked and NO_SIGNAL where it did not. -/
def State.closeSession (s : State) : State :=
  State.setIrq
    { s with
      rx := { s.rx with
        outcome := if s.rx.lockedAny then .ok else .noSignal
        state := .idle
        reg := none } } .rxDone

/-- RX_FINISH (R260). -/
def execRxFinish (s : State) : Host.Outcome State Fault Refusal :=
  if s.rx.state = .idle then .next s.refuse else .next s.truncateRegion.closeSession

/-- RX_ABORT (R261): drop the region and end the session at once; while IDLE, no effect (R105). -/
def execRxAbort (s : State) : Host.Outcome State Fault Refusal :=
  if s.rx.state = .idle then .next s
  else .next (State.setIrq { s with rx := { s.rx with reg := none, outcome := .cancelled, state := .idle } } .rxDone)

end Sys2Proof.Machine
end

