-- ==== Sys2Proof/Machine/Detector.lean ====
section
/-! DEFINITION. The region detector and the FSK demodulator, frame by frame (spec R220 to R235). The magnitudes of a
frame are an argument, bin by bin. -/

namespace Sys2Proof.Machine

open Sys2Proof

/-! Region detector (R221 to R225). -/

/-- R222: the sync energy of frame `t`. -/
def energyAt (hist : List Word) (t : Nat) : Nat := (hist.getD t 0).toNat

/-- R223: the sum of the energies of candidate `t0` over the slots `i` with PRE[i] = `v`. -/
def slotEnergy (off : List Nat) (hist : List Word) (t0 : Nat) (v : Bool) : Nat :=
  (((preamble.zip off).filter (fun p => p.1 == v)).map (fun p => energyAt hist (t0 + p.2))).sum

/-- R223: C(t0) = 4·ON(t0) - 9·OFF(t0), unbounded. -/
def correlation (off : List Nat) (hist : List Word) (t0 : Nat) : Int :=
  4 * (slotEnergy off hist t0 true : Int) - 9 * (slotEnergy off hist t0 false : Int)

/-- R224: candidate `t0` is taken. -/
def candidateTaken (sn : RxSnap) (hist : List Word) (t0 : Nat) : Bool :=
  let c0 := correlation sn.off hist t0
  decide (0 < c0) && decide (36 * (sn.minSig.toNat : Int) ≤ c0) &&
    decide (correlation sn.off hist (t0 + 1) ≤ c0)

/-- R225: the detection strength of a correlation. -/
def strengthOf (c0 : Int) : Nat := (c0 / 36).toNat

/-- R230: the frame at which data symbol `j` of a region starting at frame `t0` is decided. -/
def symbolFrame (sn : RxSnap) (t0 j : Nat) : Nat := t0 + cdiv ((13 + j) * sn.s) sn.h

/-- R225: the region a lock opens. -/
def newRegion (sn : RxSnap) (t0 : Nat) (c0 : Int) : Region where
  t0 := t0
  s0 := t0 * sn.h
  strength := strengthOf c0
  j := 0
  tf := symbolFrame sn t0 0
  cb := []
  erasures := 0
  sumw := 0
  sumr := 0
  hdr := none
  d := none

/-- R225: `Lock(t0, c0)`. -/
def State.lock (s : State) (sn : RxSnap) (t0 : Nat) (c0 : Int) : State :=
  State.setIrq
    { s with
      rx := { s.rx with
        reg := some (newRegion sn t0 c0)
        detStrength := strengthOf c0
        lockedAny := true
        state := .locked } } .rxLock

/-- R224: `Detect(t)`: the one candidate of frame `t` is t - K - 1. -/
def State.detect (s : State) (sn : RxSnap) (t : Nat) : State :=
  if t < sn.k + 1 then s
  else
    let t0 := t - sn.k - 1
    if t0 < s.rx.scanStart then s
    else if candidateTaken sn s.rx.hist t0 then s.lock sn t0 (correlation sn.off s.rx.hist t0)
    else s

/-! FSK demodulator (R230 to R234). -/

/-- R232: the greatest of the magnitudes. -/
def greatest (m : List Nat) : Nat := m.foldl max 0

/-- R232: the winner, the least tone of greatest magnitude. -/
def winner (m : List Nat) : Nat := m.findIdx (· == greatest m)

/-- R232: the runner-up, the greatest magnitude of the other tones. -/
def runnerUp (m : List Nat) : Nat := greatest (m.eraseIdx (winner m))

/-- R232: the symbol decided, none for an erasure. -/
def decideSymbol (margin : Nat) (m : List Nat) : Option Nat :=
  if greatest m = 0 ∨ 8 * greatest m < (8 + margin) * runnerUp m then none else some (winner m)

/-- R232: the `b` coded bits of a decision, most significant first; E for an erasure. -/
def symbolBits (b : Nat) : Option Nat → List CodedBit
  | some w => (List.range b).map (fun k => .bit (w.testBit (b - 1 - k)))
  | none => List.replicate b .erased

/-- R234: the magnitudes of the data tones in a frame. -/
def toneMags (sn : RxSnap) (mag : Nat → Word) : List Nat :=
  (List.range sn.m).map (fun k => (mag (sn.bin.getD k 0)).toNat)

/-- R234: the region after one more symbol, from the magnitudes of the data tones. -/
def demodRegion (sn : RxSnap) (r : Region) (m : List Nat) : Region :=
  { r with
    cb := r.cb ++ symbolBits sn.b (decideSymbol sn.margin m)
    erasures := if decideSymbol sn.margin m = none then r.erasures + 1 else r.erasures
    sumw := satAdd r.sumw (greatest m)
    sumr := satAdd r.sumr (runnerUp m)
    j := r.j + 1
    tf := symbolFrame sn r.t0 (r.j + 1) }

/-- R234: `Demod(mag)` on the region `r`. -/
def State.demodulate (s : State) (sn : RxSnap) (r : Region) (mag : Nat → Word) : State :=
  { s with rx := { s.rx with reg := some (demodRegion sn r (toneMags sn mag)), state := .demod } }

/-- R220: a region in progress: its symbol is decided at its frame, and assembled. -/
def State.regionFrame (s : State) (sn : RxSnap) (t : Nat) (mag : Nat → Word) : State :=
  match s.rx.reg with
  | some r =>
    if t = r.tf then (s.demodulate sn r mag).assemble sn (demodRegion sn r (toneMags sn mag)) else s
  | none => s

/-- R220: `Frame(t, mag)`. -/
def State.frame (s : State) (sn : RxSnap) (t : Nat) (mag : Nat → Word) : State :=
  let s1 := { s with rx := { s.rx with hist := s.rx.hist ++ [mag (sn.bin.getD sn.m 0)] } }
  match s.rx.state with
  | .idle => s1
  | .scanning => s1.detect sn t
  | .locked => s1.regionFrame sn t mag
  | .demod => s1.regionFrame sn t mag

end Sys2Proof.Machine
end

