-- ==== Sys2Proof/Machine/Analyzer.lean ====
section
/-! DEFINITION. The spectral analyzer, the RX engine's front end (spec R200 to R211): RX_ENABLE and RX-SAMPLE. -/

namespace Sys2Proof.Machine

open Sys2Proof

/-- R201: the RX engine at the start of a session. -/
def RxEngine.session : RxEngine := { RxEngine.reset with state := .scanning }

/-- R201: RX_ENABLE turned away for invalid settings. -/
def State.rxEnableFailed (s : State) : State :=
  State.setIrq
    { s with issues := issuesRx s.params s.settings, rx := { s.rx with outcome := .invalidSettings } } .rxDone

/-- R201: RX_ENABLE accepted with a snapshot. -/
def State.rxEnabled (s : State) (sn : RxSnap) : State :=
  { s with issues := issuesRx s.params s.settings, rxSnap := some sn, rx := RxEngine.session }

/-- RX_ENABLE (R201). Where EC_LEVEL or SENSITIVITY has no meaning, that is an issue of its own (R123, R125), so
validation fails first. -/
def execRxEnable (s : State) : Host.Outcome State Fault Refusal :=
  if s.rx.state ≠ .idle then .next s.refuse
  else if anyIssue (issuesRx s.params s.settings) then .next s.rxEnableFailed
  else
    match rxSnap? s.settings with
    | none => .next s.rxEnableFailed
    | some sn => .next (s.rxEnabled sn)

/-- R210: the words the MAG buffer holds once a frame of window `n` is stored. -/
def magImage (n : Nat) (mag : Nat → Word) : Memory 32 :=
  (List.range 2049).map (fun k => (k, if k ≤ n / 2 then mag k else 0))

/-- R207, R210: store a frame's magnitudes, unless MAG_FREEZE, read live, is 1. -/
def State.storeMag (s : State) (n : Nat) (mag : Nat → Word) : State :=
  if s.settings.magFreeze then s else { s with mag := magImage n mag }

/-- R205: the samples of analysis frame `t`. -/
def frameSamples (sn : RxSnap) (x : List Sample) (t : Nat) : List Sample := (x.drop (t * sn.h)).take sn.n

/-- R205, R207: after `n` samples, a frame is complete. -/
def frameDue (sn : RxSnap) (n : Nat) : Bool := sn.n ≤ n && (n - sn.n) % sn.h == 0

/-- R207: the analysis frame due now, with magnitudes `mag`: stored, counted and handed to the detector. -/
def State.analyse (s : State) (sn : RxSnap) (mag : Nat → Word) : State :=
  let s1 := s.storeMag sn.n mag
  State.frame { s1 with rx := { s1.rx with t := s.rx.t + 1 } } sn s.rx.t mag

/-- R207: RX-SAMPLE(v). While IDLE the sample is discarded; a session without its snapshot is no state of a run of
the block (log 10). -/
def State.rxSample (s : State) (v : Sample) : State :=
  if s.rx.state = .idle then s
  else
    match s.rxSnap with
    | none => s
    | some sn =>
      let s1 := { s with rx := { s.rx with x := s.rx.x ++ [v], n := s.rx.n + 1 } }
      if frameDue sn (s.rx.n + 1) then
        s1.analyse sn (specMag sn.wf (frameSamples sn s1.rx.x s.rx.t))
      else s1

end Sys2Proof.Machine
end

