-- ==== Sys2Proof/Machine/Control.lean ====
section
/-! DEFINITION. The control commands (spec R120 to R129): NOP, VALIDATE_TX, VALIDATE_RX, RES_POP, SOFT_RESET. -/

namespace Sys2Proof.Machine

open Sys2Proof

/-- NOP (R120): no effect. -/
def execNop (s : State) : Host.Outcome State Fault Refusal := .next s

/-- VALIDATE_TX (R121): ISSUES takes `Issues_TX()`. -/
def execValidateTx (s : State) : Host.Outcome State Fault Refusal :=
  .next { s with issues := issuesTx s.params s.settings }

/-- VALIDATE_RX (R122): ISSUES takes `Issues_RX()`. -/
def execValidateRx (s : State) : Host.Outcome State Fault Refusal :=
  .next { s with issues := issuesRx s.params s.settings }

/-- RES_POP (R128): remove the FIFO's head; refused where the FIFO is empty. -/
def execResPop (s : State) : Host.Outcome State Fault Refusal :=
  match s.fifo with
  | [] => .next s.refuse
  | _ :: rest => .next { s with fifo := rest }

/-- SOFT_RESET (R129): both engines, the FIFO and all status to their reset state; settings, IRQ_ENABLE and memories
stand. The snapshots take their reset value too (R304, log 12). -/
def execSoftReset (s : State) : Host.Outcome State Fault Refusal :=
  .next
    { s with
      tx := TxEngine.reset
      txSnap := none
      rx := RxEngine.reset
      rxSnap := none
      fifo := []
      cmdErr := false
      resOvf := false
      irqStatus := 0
      issues := 0 }

end Sys2Proof.Machine
end

