-- ==== Sys2Proof/Machine/Modulator.lean ====
section
/-! DEFINITION. The FSK modulator, TX engine (spec R170 to R187): TX_START, TX_ABORT, TX-EMIT and TX-CANCEL. -/

namespace Sys2Proof.Machine

open Sys2Proof

/-! Symbols and the slot plan (R175, R177). -/

/-- R175: D, the data symbols of `len` coded bits. -/
def symbolCount (b len : Nat) : Nat := cdiv len b

/-- R175: symbol `j`, its first bit the most significant, past the end of the coded bits zeros. -/
def symbolAt (b : Nat) (cb : List Bool) (j : Nat) : Nat :=
  (List.range b).foldl (fun acc k => 2 * acc + (cb.getD (j * b + k) false).toNat) 0

/-- R175: the data symbols of the coded bits. -/
def symbolsOf (b : Nat) (cb : List Bool) : List Nat := (List.range (symbolCount b cb.length)).map (symbolAt b cb)

/-- R177: the slot plan: the preamble on tone M, then each data symbol on its tone. -/
def slotPlan (m b : Nat) (cb : List Bool) : List Slot :=
  preamble.map (fun on => { tone := m, on := on }) ++
    (symbolsOf b cb).map (fun sym => { tone := sym, on := true })

/-! Envelope and output sample (R178, R180). -/

/-- R178: the fade value `p` steps into a fade of `q` steps, by the snapshot's shape. -/
def fadeValue (raised : Bool) (p q : Nat) : Nat := if raised then raisedCosine p q else 32768 * p / q

/-- R178: `env(slot, i)`. -/
def envelope (sn : TxSnap) (on : Bool) (i : Nat) : Nat :=
  if on = false ∨ sn.ne ≤ i then 0
  else
    let e := if i < sn.nfi then min 32768 (fadeValue sn.shape (i + 1) (sn.nfi + 1)) else 32768
    if sn.ne - sn.nfo ≤ i then min e (fadeValue sn.shape (sn.ne - i) (sn.nfo + 1)) else e

/-- R180: the output sample as an integer, by floor division. -/
def sampleValue (amp env : Nat) (phase : Word) : Int := ((amp * env : Nat) : Int) * sine phase / 2 ^ 30

/-- R180, R14: the sample of a slot at index `i` and a phase, as the stream carries it. -/
def sampleOf (sn : TxSnap) (sl : Slot) (i : Nat) (phase : Word) : Sample :=
  BitVec.ofInt 16 (sampleValue sn.amp.toNat (envelope sn sl.on i) phase)

/-! TX_START (R181, R182). -/

/-- R142: the payload, the first TX_LEN bytes of the TX payload RAM. -/
def State.txPayload (s : State) : List Byte := (List.range s.settings.txLen.toNat).map s.txByte

/-- R181: the coded bits TX_START sends at a level. -/
def State.txCodedBits (s : State) (ec : EcLevel) : List Bool :=
  ecEncode ec s.settings.redundancy.toNat
    (bitsOf (frameBody ec s.settings.hdrCompressed s.settings.hdrEncrypted s.txPayload))

/-- R181: the slot plan TX_START sends at a level. -/
def State.txPlan (s : State) (ec : EcLevel) : List Slot :=
  slotPlan s.settings.m s.settings.tonesLog2 (s.txCodedBits ec)

/-- R182: T, the samples of the transmission at a level. -/
def State.txTotal (s : State) (ec : EcLevel) : Nat := (s.txPlan ec).length * s.settings.slotLen

/-- R182: a transmission of `t` samples fits the budget; a budget of 0 is no limit. -/
def fitsBudget (st : Settings) (t : Nat) : Bool := st.txMaxSamples == 0 || t ≤ st.txMaxSamples.toNat

/-- R181: TX_START turned away with an outcome, after its validation. -/
def State.txStartFailed (s : State) (c : OutcomeCode) : State :=
  State.setIrq
    { s with
      issues := issuesTx s.params s.settings
      tx := { s.tx with count := 0, total := 0, outcome := c } } .txDone

/-- R181: TX_START accepted at a level. -/
def State.txStarted (s : State) (ec : EcLevel) : State :=
  { s with
    issues := issuesTx s.params s.settings
    txSnap := some (txSnapOf s.settings)
    tx :=
      { state := .run, plan := s.txPlan ec, slot := 0, i := 0, phase := 0, abort := false, count := 0
        total := s.txTotal ec, outcome := .none } }

/-- TX_START (R181). A level without a meaning is an issue of its own (EC_LEVEL, R123), so validation fails first. -/
def execTxStart (s : State) : Host.Outcome State Fault Refusal :=
  if s.tx.state = .run then .next s.refuse
  else if anyIssue (issuesTx s.params s.settings) then .next (s.txStartFailed .invalidSettings)
  else
    match ecLevelOf s.settings.ecField with
    | none => .next (s.txStartFailed .invalidSettings)
    | some ec =>
      if fitsBudget s.settings (s.txTotal ec) then .next (s.txStarted ec)
      else .next (s.txStartFailed .capacityExceeded)

/-! TX_ABORT and the engine's steps (R183 to R185). -/

/-- TX_ABORT (R184): request cancellation at the next slot boundary; while IDLE, no effect (R105). -/
def execTxAbort (s : State) : Host.Outcome State Fault Refusal :=
  if s.tx.state = .run then .next { s with tx := { s.tx with abort := true } } else .next s

/-- R185: TX-CANCEL is enabled. -/
def State.cancelEnabled (s : State) : Bool := s.tx.state == .run && s.tx.abort && s.tx.i == 0

/-- R183: TX-EMIT is enabled, given a sink that takes a sample. -/
def State.emitEnabled (s : State) : Bool := s.tx.state == .run && !(s.tx.abort && s.tx.i == 0)

/-- R185: TX-CANCEL. -/
def State.txCancel (s : State) : State :=
  State.setIrq { s with tx := { s.tx with state := .idle, abort := false, outcome := .cancelled } } .txDone

/-- R183: the TX engine after one sample of slot `sl` under snapshot `sn`. -/
def TxEngine.advance (tx : TxEngine) (sn : TxSnap) (sl : Slot) : TxEngine :=
  let tx1 := { tx with phase := tx.phase + sn.inc.getD sl.tone 0, count := tx.count + 1, i := tx.i + 1 }
  if tx.i + 1 = sn.s then
    let tx2 := { tx1 with i := 0, slot := tx.slot + 1 }
    if tx.slot + 1 = tx.plan.length then { tx2 with state := .idle, abort := false, outcome := .ok } else tx2
  else tx1

/-- R183: this sample is the last of the plan. -/
def TxEngine.lastSample (tx : TxEngine) (sn : TxSnap) : Bool :=
  tx.i + 1 == sn.s && tx.slot + 1 == tx.plan.length

/-- R183: TX-EMIT: hand the sample to the stream and advance. A run without a snapshot or a slot is no state of a
run of the block (log 10): no sample is offered there. -/
def State.txEmit (s : State) : State :=
  match s.txSnap, s.tx.plan[s.tx.slot]? with
  | some sn, some sl =>
    let s1 :=
      { s with
        txStream := s.txStream ++ [sampleOf sn sl s.tx.i s.tx.phase]
        tx := s.tx.advance sn sl }
    if s.tx.lastSample sn then s1.setIrq .txDone else s1
  | _, _ => s

end Sys2Proof.Machine
end

