-- ==== Sys2Proof/Machine/Dispatch.lean ====
section
/-! DEFINITION. One arm per command (spec R102). -/

namespace Sys2Proof.Machine

open Sys2Proof

def exec (i : Instr) (s : State) : Host.Outcome State Fault Refusal :=
  match i with
  | .nop => Sys2Proof.Machine.execNop s
  | .txStart => Sys2Proof.Machine.execTxStart s
  | .txAbort => Sys2Proof.Machine.execTxAbort s
  | .validateTx => Sys2Proof.Machine.execValidateTx s
  | .validateRx => Sys2Proof.Machine.execValidateRx s
  | .rxEnable => Sys2Proof.Machine.execRxEnable s
  | .rxFinish => Sys2Proof.Machine.execRxFinish s
  | .rxAbort => Sys2Proof.Machine.execRxAbort s
  | .resPop => Sys2Proof.Machine.execResPop s
  | .softReset => Sys2Proof.Machine.execSoftReset s

end Sys2Proof.Machine
end

