-- ==== Sys2Proof/Machine/Port.lean ====
section
/-! DEFINITION. The register port (spec R20 to R58, R80 to R91): the address map, and the reads and writes of every
register and window but the write to CMD. -/

namespace Sys2Proof.Machine

open Sys2Proof

/-- R22: the value of ID. -/
def idValue : Word := 0x46534B07

/-- R20: the registers of the map. -/
inductive Reg where
  | id | ctrl | cmd | status | irqStatus | irqEnable | issues | params0
  | sampleRate | baseFreq | freqSep | bitDurMs | guardMs | fadeInMs | fadeOutMs | amplitude
  | redundancy | txLen | txMaxSamples | params1 | winOverlap | minSignal | errTol | maxRetries
  | freqHintLo | freqHintHi
  | txSampleCnt | txTotal | rxSampleCnt | rxFrameCnt | detStrength | rxSymCnt
  | resStatus | resLen | resStart | resEnd | resFreq | resErrCorr | resErasures | resStrength
  | resSymbols | resSumWin | resSumRun
deriving DecidableEq, Repr

/-- R20: the register at each offset. -/
def regMap : List (Nat × Reg) :=
  [(0x000, .id), (0x004, .ctrl), (0x008, .cmd), (0x00C, .status), (0x010, .irqStatus), (0x014, .irqEnable),
   (0x018, .issues), (0x01C, .params0), (0x020, .sampleRate), (0x024, .baseFreq), (0x028, .freqSep),
   (0x02C, .bitDurMs), (0x030, .guardMs), (0x034, .fadeInMs), (0x038, .fadeOutMs), (0x03C, .amplitude),
   (0x040, .redundancy), (0x044, .txLen), (0x048, .txMaxSamples), (0x04C, .params1), (0x050, .winOverlap),
   (0x054, .minSignal), (0x058, .errTol), (0x05C, .maxRetries), (0x060, .freqHintLo), (0x064, .freqHintHi)] ++
  [(0x070, .txSampleCnt), (0x074, .txTotal), (0x078, .rxSampleCnt), (0x07C, .rxFrameCnt),
   (0x080, .detStrength), (0x084, .rxSymCnt),
   (0x090, .resStatus), (0x094, .resLen), (0x098, .resStart), (0x09C, .resEnd), (0x0A0, .resFreq),
   (0x0A4, .resErrCorr), (0x0A8, .resErasures), (0x0AC, .resStrength), (0x0B0, .resSymbols),
   (0x0B4, .resSumWin), (0x0B8, .resSumRun)]

/-- R81: what an offset reaches. -/
inductive Target where
  | reg (r : Reg)
  /-- Word `w` of the TX payload RAM window. -/
  | txRam (w : Nat)
  /-- Word `w` of the RX payload window. -/
  | rxPayload (w : Nat)
  /-- Word `k` of the MAG buffer. -/
  | mag (k : Nat)
  | unmapped
deriving DecidableEq, Repr

/-- R81: the address map, for a word-aligned offset. -/
def targetOf (off : Offset) : Target :=
  let o := off.toNat
  if o < 0x0C0 then
    match regMap.lookup o with
    | some r => .reg r
    | none => .unmapped
  else if 0x1000 ≤ o ∧ o < 0x2000 then .txRam ((o - 0x1000) / 4)
  else if 0x2000 ≤ o ∧ o < 0x3000 then .rxPayload ((o - 0x2000) / 4)
  else if 0x4000 ≤ o ∧ o < 0x6004 then .mag ((o - 0x4000) / 4)
  else .unmapped

/-! Reads (R86). -/

/-- R55: a field of the FIFO's head as a register shows it; 0 where the FIFO is empty. -/
def State.headField (s : State) (f : ResultEntry → Word) : Word :=
  match s.fifo with
  | [] => 0
  | e :: _ => f e

/-- R54: RX_SYM_CNT. -/
def State.symCount (s : State) : Word :=
  match s.rx.state, s.rx.reg with
  | .locked, some r => trunc32 r.j
  | .demod, some r => trunc32 r.j
  | _, _ => 0

/-- R20 to R56, R86: the value a register reads as. -/
def State.readReg (s : State) : Reg → Word
  | .id => idValue
  | .ctrl => s.settings.ctrl
  | .cmd => 0
  | .status => s.statusWord
  | .irqStatus => s.irqStatus.setWidth 32
  | .irqEnable => s.irqEnable.setWidth 32
  | .issues => s.issues
  | .params0 => params0Word s.params
  | .sampleRate => s.settings.sampleRate
  | .baseFreq => s.settings.baseFreq
  | .freqSep => s.settings.freqSep
  | .bitDurMs => s.settings.bitDurMs.setWidth 32
  | .guardMs => s.settings.guardMs.setWidth 32
  | .fadeInMs => s.settings.fadeInMs.setWidth 32
  | .fadeOutMs => s.settings.fadeOutMs.setWidth 32
  | .amplitude => s.settings.amplitude.setWidth 32
  | .redundancy => s.settings.redundancy.setWidth 32
  | .txLen => s.settings.txLen.setWidth 32
  | .txMaxSamples => s.settings.txMaxSamples
  | .params1 => params1Word s.params
  | .winOverlap => s.settings.winOverlap.setWidth 32
  | .minSignal => s.settings.minSignal
  | .errTol => s.settings.errTol.setWidth 32
  | .maxRetries => s.settings.maxRetries.setWidth 32
  | .freqHintLo => s.settings.freqHintLo
  | .freqHintHi => s.settings.freqHintHi
  | .txSampleCnt => trunc32 s.tx.count
  | .txTotal => trunc32 s.tx.total
  | .rxSampleCnt => trunc32 s.rx.n
  | .rxFrameCnt => trunc32 s.rx.t
  | .detStrength => trunc32 s.rx.detStrength
  | .rxSymCnt => s.symCount
  | .resStatus => s.headField resStatusOf
  | .resLen => s.headField (fun e => e.len.setWidth 32)
  | .resStart => s.headField (fun e => trunc32 e.start)
  | .resEnd => s.headField (fun e => trunc32 e.stop)
  | .resFreq => s.headField (fun e => e.freq)
  | .resErrCorr => s.headField (fun e => e.corrected)
  | .resErasures => s.headField (fun e => e.erasures)
  | .resStrength => s.headField (fun e => e.strength)
  | .resSymbols => s.headField (fun e => e.symbols)
  | .resSumWin => s.headField (fun e => e.sumw)
  | .resSumRun => s.headField (fun e => e.sumr)

/-- R87: the word of four bytes, the first at the least significant end. -/
def wordOfBytes (b0 b1 b2 b3 : Byte) : Word := b3 ++ b2 ++ b1 ++ b0

/-- R87: byte `q` of a word. -/
def byteOfWord (v : Word) (q : Nat) : Byte := v.extractLsb' (8 * q) 8

/-- R86: byte `k` of the TX payload RAM as the window shows it: 0 at or above MAXLEN. -/
def State.txWindowByte (s : State) (k : Nat) : Byte := if k < s.params.maxLen then s.txByte k else 0

/-- R57, R86: byte `k` of the head's payload as the window shows it. -/
def State.rxWindowByte (s : State) (k : Nat) : Byte :=
  match s.fifo with
  | [] => 0
  | e :: _ => if e.code = .ok ∧ k < e.len.toNat then (e.payload.getD []).getD k 0 else 0

/-- Word `w` of a byte window. -/
def windowWord (f : Nat → Byte) (w : Nat) : Word :=
  wordOfBytes (f (4 * w)) (f (4 * w + 1)) (f (4 * w + 2)) (f (4 * w + 3))

/-- R84, R86: the value an aligned word read of an offset returns. -/
def State.portRead (s : State) (off : Offset) : Word :=
  match targetOf off with
  | .reg r => s.readReg r
  | .txRam w => windowWord s.txWindowByte w
  | .rxPayload w => windowWord s.rxWindowByte w
  | .mag k => s.magWord k
  | .unmapped => 0

/-! Writes (R85). -/

/-- R21, R85: a RW setting register takes the fields its rule defines; every other register is unchanged. -/
def Settings.write (st : Settings) (r : Reg) (v : Word) : Settings :=
  match r with
  | .ctrl => { st with ctrl := v &&& ctrlMask }
  | .sampleRate => { st with sampleRate := v }
  | .baseFreq => { st with baseFreq := v }
  | .freqSep => { st with freqSep := v }
  | .bitDurMs => { st with bitDurMs := v.setWidth 16 }
  | .guardMs => { st with guardMs := v.setWidth 16 }
  | .fadeInMs => { st with fadeInMs := v.setWidth 16 }
  | .fadeOutMs => { st with fadeOutMs := v.setWidth 16 }
  | .amplitude => { st with amplitude := v.setWidth 16 }
  | .redundancy => { st with redundancy := v.setWidth 4 }
  | .txLen => { st with txLen := v.setWidth 16 }
  | .txMaxSamples => { st with txMaxSamples := v }
  | .winOverlap => { st with winOverlap := v.setWidth 8 }
  | .minSignal => { st with minSignal := v }
  | .errTol => { st with errTol := v.setWidth 16 }
  | .maxRetries => { st with maxRetries := v.setWidth 8 }
  | .freqHintLo => { st with freqHintLo := v }
  | .freqHintHi => { st with freqHintHi := v }
  | .id | .cmd | .status | .irqStatus | .irqEnable | .issues | .params0 | .params1
  | .txSampleCnt | .txTotal | .rxSampleCnt | .rxFrameCnt | .detStrength | .rxSymCnt
  | .resStatus | .resLen | .resStart | .resEnd | .resFreq | .resErrCorr | .resErasures | .resStrength
  | .resSymbols | .resSumWin | .resSumRun => st

/-- R28: the W1C bits of STATUS. -/
def State.writeStatus (s : State) (v : Word) : State :=
  { s with cmdErr := s.cmdErr && !v.getLsbD 16, resOvf := s.resOvf && !v.getLsbD 17 }

/-- R29, R85: the W1C bits of IRQ_STATUS. -/
def State.writeIrqStatus (s : State) (v : Word) : State :=
  { s with irqStatus := s.irqStatus &&& ~~~(v.setWidth 6) }

/-- R85: a write to a register; a write to CMD is a command and is not made here (R26). -/
def State.writeReg (s : State) (r : Reg) (v : Word) : State :=
  match r with
  | .status => s.writeStatus v
  | .irqStatus => s.writeIrqStatus v
  | .irqEnable => { s with irqEnable := v.setWidth 6 }
  | r => { s with settings := s.settings.write r v }

/-- R85, R90: a write to word `w` of the TX payload RAM window; no effect while a transmission runs. -/
def State.writeTxWord (s : State) (w : Nat) (v : Word) : State :=
  if s.tx.state = .run then s
  else
    (((s.setTxByte (4 * w) (byteOfWord v 0)).setTxByte (4 * w + 1) (byteOfWord v 1)).setTxByte (4 * w + 2)
      (byteOfWord v 2)).setTxByte (4 * w + 3) (byteOfWord v 3)

/-- R84, R85: an aligned word write to an offset that is not CMD's. -/
def State.portWrite (s : State) (off : Offset) (v : Word) : State :=
  match targetOf off with
  | .reg r => s.writeReg r v
  | .txRam w => s.writeTxWord w v
  | .rxPayload _ => s
  | .mag _ => s
  | .unmapped => s

end Sys2Proof.Machine
end

