-- ==== Sys2Proof/Machine/Agents.lean ====
section
/-! DEFINITION. The steps of the agents (spec R8): HOST accesses, the TX engine's turns, RX-SAMPLE and reset. -/

namespace Sys2Proof.Machine

open Sys2Proof

/-- R20: the offset of CMD. -/
def cmdOffset : Offset := 0x008

/-- R83: an access of a width other than 4, or at an offset that is no multiple of 4, ends with BusError. -/
def badAccess (width : Nat) (off : Offset) : Bool := !(width == 4 && off.toNat % 4 == 0)

/-- R101 to R104: a word written to CMD: its command, or the refusal of an illegal word. -/
def issueCommand (w : Word) (s : State) : Host.Outcome State Fault Refusal :=
  match decode w with
  | .ok i => exec i s
  | .error _ => .next s.refuse

/-- R82, R83, R85: HOST MemWrite(off, width, v). -/
def hostWrite (off : Offset) (width : Nat) (v : Word) (s : State) : Host.Outcome State Fault Refusal :=
  if badAccess width off then .next { s with port := .writeError }
  else if off = cmdOffset then issueCommand v { s with port := .written }
  else .next (State.portWrite { s with port := .written } off v)

/-- R82, R83, R86: HOST MemRead(off, width); a BusError's data is 0. -/
def hostRead (off : Offset) (width : Nat) (s : State) : State :=
  if badAccess width off then { s with port := .readError 0 } else { s with port := .data (s.portRead off) }

/-- R183: the sink is ready: TX-EMIT where it is enabled; else no sample is offered and nothing happens (R170). -/
def sinkTurn (s : State) : State := if s.emitEnabled then s.txEmit else s

/-- R185: the TX engine's own turn: TX-CANCEL where it is enabled. -/
def cancelTurn (s : State) : State := if s.cancelEnabled then s.txCancel else s

/-- R8: the step an input makes, `rst_n` not being asserted. -/
def agentStep (i : Input) (s : State) : Host.Outcome State Fault Refusal :=
  match i with
  | .hostWrite off width v => hostWrite off width v s
  | .hostRead off width => .next (hostRead off width s)
  | .sinkReady => .next (sinkTurn s)
  | .txTurn => .next (cancelTurn s)
  | .sourceOffers v => .next (s.rxSample v)
  | .resetAssert => .next s.hardReset
  | .resetRelease => .next s

/-- R300: the step an input makes while `rst_n` is asserted: no access and no transfer is taken. -/
def heldInReset (i : Input) (s : State) : State :=
  match i with
  | .resetRelease => { s with rstAsserted := false }
  | .resetAssert => s
  | .hostWrite _ _ _ => s
  | .hostRead _ _ => s
  | .sinkReady => s
  | .txTurn => s
  | .sourceOffers _ => s

/-- One entry of the schedule, already taken off it. -/
def inputStep (i : Input) (s : State) : Host.Outcome State Fault Refusal :=
  if s.rstAsserted then .next (heldInReset i s) else agentStep i s

/-- With nothing scheduled, the one step that needs no environment: TX-CANCEL where it is enabled (R185, log 1). -/
def idleStep (s : State) : State := if s.rstAsserted then s else cancelTurn s

/-- The state with its schedule's head taken off and no answer on the port yet. -/
def State.takeInput (s : State) : State := { s with inputs := s.inputs.tail, port := .none }

/-- The schedule with a write of the word `w` to CMD as the next step, `rst_n` released so that it is taken. -/
def State.scheduleCommand (s : State) (w : Word) : State :=
  { s with inputs := .hostWrite cmdOffset 4 w :: s.inputs, rstAsserted := false }

end Sys2Proof.Machine
end

