-- ==== Sys2Proof/Machine/Step.lean ====
section
/-! DEFINITION. One step of the machine: the step of the agent the schedule names next (spec R8, R9, R92). -/

namespace Sys2Proof.Machine

open Sys2Proof

def step (s : State) : Host.Outcome State Fault Refusal :=
  match s.inputs with
  | [] => .next (idleStep s.takeInput)
  | i :: _ => inputStep i s.takeInput

/-- The instruction whose low `nbits` bits are those of `w`, placed where the next step takes its command: a HOST
write of that word to CMD at the head of the schedule (R101; log 11). -/
def State.withFetchWord (s : State) (nbits w : Nat) : State := s.scheduleCommand (tableWord nbits w)

end Sys2Proof.Machine
end

