-- ==== Sys2Proof/Safety.lean ====
section
/-! DEFINITION. What counts as a good state: the invariants the spec names (R57, R58, R186, R208, R255, R259, R281) and the
shape of a transmission and of a session that every step keeps. -/

namespace Sys2Proof.Safety

open Sys2Proof Sys2Proof.Machine

/-- R57: each memory is in its canonical form and lists only what exists. -/
def MemoriesOk (s : State) : Prop :=
  Memory.wf s.txRam = true ∧ (∀ c ∈ s.txRam, c.1 < s.params.maxLen) ∧
    Memory.wf s.mag = true ∧ ∀ c ∈ s.mag, c.1 ≤ 2048

/-- R23, R31: the reserved bits of CTRL and ISSUES read 0. -/
def ReservedBitsOk (s : State) : Prop := s.settings.ctrl &&& ~~~ctrlMask = 0 ∧ s.issues &&& 0x7FFF8000 = 0

/-- R281: the codes TX_OUTCOME holds. -/
def txOutcomeOk (c : OutcomeCode) : Bool :=
  c == .none || c == .ok || c == .invalidSettings || c == .capacityExceeded || c == .cancelled

/-- R281: the codes RX_OUTCOME holds. -/
def rxOutcomeOk (c : OutcomeCode) : Bool :=
  c == .none || c == .ok || c == .invalidSettings || c == .noSignal || c == .cancelled

/-- R255: the pairs of code and reason a region can end with. -/
def resultPairOk (c : OutcomeCode) (r : Reason) : Bool :=
  match r with
  | .none => c == .ok
  | .ecUnrecoverable => c == .integrityFailed
  | .tolerance => c == .integrityFailed
  | .crc => c == .integrityFailed
  | .version => c == .frameMalformed
  | .ecMismatch => c == .frameMalformed
  | .length => c == .frameMalformed
  | .truncated => c == .frameMalformed

/-- R255, R281: the outcome codes and the results' codes and reasons are among those the spec lists. -/
def OutcomesOk (s : State) : Prop :=
  txOutcomeOk s.tx.outcome = true ∧ rxOutcomeOk s.rx.outcome = true ∧
    ∀ e ∈ s.fifo, resultPairOk e.code e.reason = true

/-- R58, R259: an entry has a payload exactly when it is OK, and then it holds L bytes, at most MAXLEN. -/
def payloadOk (maxLen : Nat) (e : ResultEntry) : Prop :=
  (e.code ≠ .ok → e.payload = none) ∧
    (e.code = .ok → ∃ p, e.payload = some p ∧ p.length = e.len.toNat ∧ p.length ≤ maxLen)

/-- R58: the FIFO holds at most RESULT_DEPTH entries. -/
def ResultsOk (s : State) : Prop :=
  s.fifo.length ≤ s.params.resultDepth ∧ ∀ e ∈ s.fifo, payloadOk s.params.maxLen e

/-- R61, R183, R186: a running transmission under its snapshot: its position is inside the plan, the count is the
position, the total is the plan's samples, and every slot's tone has an increment. -/
def runningOk (tx : TxEngine) (sn : TxSnap) : Prop :=
  tx.i < sn.s ∧ tx.slot < tx.plan.length ∧ tx.count = tx.slot * sn.s + tx.i ∧
    tx.total = tx.plan.length * sn.s ∧ tx.outcome = .none ∧ ∀ sl ∈ tx.plan, sl.tone < sn.inc.length

/-- R61, R186: a running transmission has a snapshot and a position inside its plan; an idle engine has no abort
pending; an OK outcome means every sample was sent. -/
def TransmissionOk (s : State) : Prop :=
  (s.tx.state = .run → ∃ sn, s.txSnap = some sn ∧ runningOk s.tx sn) ∧
    (s.tx.state = .idle → s.tx.abort = false) ∧ (s.tx.outcome = .ok → s.tx.count = s.tx.total)

/-- The frames computed from `n` samples (R205). -/
def framesAfter (sn : RxSnap) (n : Nat) : Nat := if n < sn.n then 0 else (n - sn.n) / sn.h + 1

/-- R201, R202: what validation guarantees of a snapshot. -/
def snapOk (sn : RxSnap) : Prop :=
  0 < sn.n ∧ 0 < sn.h ∧ sn.h ≤ sn.n ∧ sn.n + 2 * sn.h ≤ sn.nb ∧ sn.nb ≤ sn.s ∧ 1 ≤ sn.b ∧ sn.b ≤ 4 ∧
    sn.bin.length = sn.m + 1 ∧ sn.k = slotFrame sn.s sn.h 12 ∧
    (sn.ec = .basic → sn.r % 2 = 1)

/-- R72, R225, R250, R252: a region in progress, the next frame to come being frame `t`: its next symbol's frame is
still to come, its coded bits are whole symbols, and its header is decoded as soon as its bits are in. -/
def regionOk (maxLen : Nat) (sn : RxSnap) (t : Nat) (r : Region) : Prop :=
  r.s0 = r.t0 * sn.h ∧ r.tf = symbolFrame sn r.t0 r.j ∧ t ≤ r.tf ∧ r.cb.length = r.j * sn.b ∧ r.erasures ≤ r.j ∧
    match r.hdr with
    | none => r.d = none ∧ r.j * sn.b < codedLen sn.ec sn.r 24
    | some h => h.len ≤ maxLen ∧ ∃ d, r.d = some d ∧ d = cdiv (codedLen sn.ec sn.r (40 + 8 * h.len)) sn.b ∧ r.j < d

/-- R71, R72, R207: a running session: its snapshot, its counts, and a region exactly while one is locked. -/
def sessionRunning (maxLen : Nat) (rx : RxEngine) (sn : RxSnap) : Prop :=
  snapOk sn ∧ rx.x.length = rx.n ∧ rx.hist.length = rx.t ∧ rx.t = framesAfter sn rx.n ∧ rx.outcome = .none ∧
    match rx.state, rx.reg with
    | .scanning, none => True
    | .locked, some r => r.j = 0 ∧ rx.lockedAny = true ∧ regionOk maxLen sn rx.t r
    | .demod, some r => 0 < r.j ∧ rx.lockedAny = true ∧ regionOk maxLen sn rx.t r
    | _, _ => False

/-- R71, R72: the RX engine's shape. -/
def SessionOk (s : State) : Prop :=
  (s.rx.state = .idle → s.rx.reg = none) ∧
    (s.rx.state ≠ .idle → ∃ sn, s.rxSnap = some sn ∧ sessionRunning s.params.maxLen s.rx sn)

/-- R187: the sum of the increments of the first `n` samples of a plan, that is the phase of sample `n`. -/
def phaseAt (sn : TxSnap) (plan : List Slot) : Nat → Word
  | 0 => 0
  | n + 1 =>
    phaseAt sn plan n +
      match plan[n / sn.s]? with
      | some sl => sn.inc.getD sl.tone 0
      | none => 0

/-- R187: sample `n` of a transmission, a function of its snapshot and its plan alone. -/
def streamSample (sn : TxSnap) (plan : List Slot) (n : Nat) : Sample :=
  match plan[n / sn.s]? with
  | some sl => sampleOf sn sl (n % sn.s) (phaseAt sn plan n)
  | none => 0

/-- R187: the first `n` samples of a transmission. -/
def streamSamples (sn : TxSnap) (plan : List Slot) (n : Nat) : List Sample :=
  (List.range n).map (streamSample sn plan)

/-- R187: the phase of a transmission, running or finished (OK or CANCELLED), and the samples it has sent are those of
the formula; a transmission that ended with OK has sent all of its plan's samples. -/
def StreamOk (s : State) : Prop :=
  s.tx.state = .run ∨ s.tx.outcome = .ok ∨ s.tx.outcome = .cancelled →
    ∃ sn before, s.txSnap = some sn ∧ s.tx.phase = phaseAt sn s.tx.plan s.tx.count ∧
      s.txStream = before ++ streamSamples sn s.tx.plan s.tx.count ∧
      (s.tx.outcome = .ok → s.tx.count = s.tx.total ∧ s.tx.total = s.tx.plan.length * sn.s)

/-- R227: a session that has heard only silence and has not locked. -/
def SilentSession (s : State) : Prop :=
  s.rx.state = .scanning ∧ s.rx.lockedAny = false ∧ (∀ v ∈ s.rx.x, v = 0) ∧ (∀ e ∈ s.rx.hist, e = 0)

/-- A sequence with its element at position `p` inverted. -/
def invertAt (l : List Bool) (p : Nat) : List Bool := l.set p (!l.getD p false)

/-- R157: coded blocks of eight bits, each with at most one bit inverted, as the list of errors says. -/
def corruptBlocks : List (Option (Fin 8)) → List Bool → List Bool
  | [], cb => cb
  | none :: es, cb => cb.take 8 ++ corruptBlocks es (cb.drop 8)
  | some p :: es, cb => invertAt (cb.take 8) p ++ corruptBlocks es (cb.drop 8)

/-- R156: a group of `r` received copies of the bit `b` in which `b` outvotes its inverse. -/
def votesFor (r : Nat) (b : Bool) (grp : List CodedBit) : Prop :=
  grp.length = r ∧ grp.count (.bit (!b)) < grp.count (.bit b)

/-- R104: the commands a state refuses. -/
def Refused (i : Instr) (s : State) : Prop :=
  (i = .txStart ∧ s.tx.state = .run) ∨ (i = .rxEnable ∧ s.rx.state ≠ .idle) ∨
    (i = .rxFinish ∧ s.rx.state = .idle) ∨ (i = .resPop ∧ s.fifo = [])

/-- R20, R21, R32 to R48: the RW registers and the bits each defines. -/
def rwMasks : List (Reg × Word) :=
  [(.ctrl, 0x0007FF7F), (.irqEnable, 0x3F), (.sampleRate, 0xFFFFFFFF), (.baseFreq, 0xFFFFFFFF),
   (.freqSep, 0xFFFFFFFF), (.bitDurMs, 0xFFFF), (.guardMs, 0xFFFF), (.fadeInMs, 0xFFFF), (.fadeOutMs, 0xFFFF),
   (.amplitude, 0xFFFF), (.redundancy, 0xF), (.txLen, 0xFFFF), (.txMaxSamples, 0xFFFFFFFF),
   (.winOverlap, 0xFF), (.minSignal, 0xFFFFFFFF), (.errTol, 0xFFFF), (.maxRetries, 0xFF),
   (.freqHintLo, 0xFFFFFFFF), (.freqHintHi, 0xFFFFFFFF)]

/-- R20 to R56: the bits each register defines; the others are reserved. -/
def definedBits : Reg → Word
  | .id => 0xFFFFFFFF
  | .ctrl => 0x0007FF7F
  | .cmd => 0
  | .status => 0x00F3FF77
  | .irqStatus => 0x3F
  | .irqEnable => 0x3F
  | .issues => 0x80007FFF
  | .params0 => 0x000FFFFF
  | .sampleRate => 0xFFFFFFFF
  | .baseFreq => 0xFFFFFFFF
  | .freqSep => 0xFFFFFFFF
  | .bitDurMs => 0xFFFF
  | .guardMs => 0xFFFF
  | .fadeInMs => 0xFFFF
  | .fadeOutMs => 0xFFFF
  | .amplitude => 0xFFFF
  | .redundancy => 0xF
  | .txLen => 0xFFFF
  | .txMaxSamples => 0xFFFFFFFF
  | .params1 => 0xFFFF
  | .winOverlap => 0xFF
  | .minSignal => 0xFFFFFFFF
  | .errTol => 0xFFFF
  | .maxRetries => 0xFF
  | .freqHintLo => 0xFFFFFFFF
  | .freqHintHi => 0xFFFFFFFF
  | .txSampleCnt => 0xFFFFFFFF
  | .txTotal => 0xFFFFFFFF
  | .rxSampleCnt => 0xFFFFFFFF
  | .rxFrameCnt => 0xFFFFFFFF
  | .detStrength => 0xFFFFFFFF
  | .rxSymCnt => 0xFFFFFFFF
  | .resStatus => 0x000F3FF1
  | .resLen => 0xFFFF
  | .resStart => 0xFFFFFFFF
  | .resEnd => 0xFFFFFFFF
  | .resFreq => 0xFFFFFFFF
  | .resErrCorr => 0xFFFFFFFF
  | .resErasures => 0xFFFFFFFF
  | .resStrength => 0xFFFFFFFF
  | .resSymbols => 0xFFFFFFFF
  | .resSumWin => 0xFFFFFFFF
  | .resSumRun => 0xFFFFFFFF

/-- R20, R81, R84: the word-aligned offsets that reach no register and no window. -/
def unmappedOffset (off : Offset) : Bool :=
  let o := off.toNat
  o % 4 == 0 &&
    ((0x0C0 ≤ o && o < 0x1000) || (0x3000 ≤ o && o < 0x4000) || 0x6004 ≤ o ||
      [0x068, 0x06C, 0x088, 0x08C, 0x0BC].contains o)

/-- R20, R301: the reset value each register reads, but PARAMS0 and PARAMS1. -/
def resetValues : List (Reg × Word) :=
  [(.id, 0x46534B07), (.ctrl, 0x00004510), (.cmd, 0), (.status, 0), (.irqStatus, 0), (.irqEnable, 0), (.issues, 0),
   (.sampleRate, 44100), (.baseFreq, 19000), (.freqSep, 1000), (.bitDurMs, 50), (.guardMs, 0), (.fadeInMs, 5),
   (.fadeOutMs, 5), (.amplitude, 9830), (.redundancy, 3), (.txLen, 0), (.txMaxSamples, 0), (.winOverlap, 128),
   (.minSignal, 0), (.errTol, 65535), (.maxRetries, 0), (.freqHintLo, 0), (.freqHintHi, 0)] ++
  [(.txSampleCnt, 0), (.txTotal, 0), (.rxSampleCnt, 0), (.rxFrameCnt, 0), (.detStrength, 0), (.rxSymCnt, 0),
   (.resStatus, 0), (.resLen, 0), (.resStart, 0), (.resEnd, 0), (.resFreq, 0), (.resErrCorr, 0), (.resErasures, 0),
   (.resStrength, 0), (.resSymbols, 0), (.resSumWin, 0), (.resSumRun, 0)]

/-- The invariant of the machine. -/
def Inv (s : State) : Prop :=
  s.params.legal = true ∧ MemoriesOk s ∧ ReservedBitsOk s ∧ OutcomesOk s ∧ ResultsOk s ∧ TransmissionOk s ∧
    SessionOk s

end Sys2Proof.Safety
end

