-- ==== Sys2Proof/Certificates/Slice0/Obligations.lean ====
section
/-! DEFINITION. The statements for the provers, in the order of OBLIGATIONS.json. Each docstring names the rules of the
spec it formalises, and, where a clause rests on a choice of the model, its log entry. -/

open Sys2Proof Sys2Proof.Machine Sys2Proof.Safety

/-! Encoding (R100 to R103). -/

/-- R102, R103: a command word is legal exactly when it is one of the ten of the opcode map; a word with a bit of
31:8 set is illegal whatever its OPCODE, and so is each of the 246 other OPCODE values. -/
def Obligations.DecodeAcceptsExactlyTheTenWords : Prop :=
  (∀ w i, decode w = .ok i ↔
    (w, i) ∈ [(0x00000000#32, Instr.nop), (0x00000001#32, Instr.txStart), (0x00000002#32, Instr.txAbort),
      (0x00000003#32, Instr.validateTx), (0x00000004#32, Instr.validateRx), (0x00000010#32, Instr.rxEnable),
      (0x00000011#32, Instr.rxFinish), (0x00000012#32, Instr.rxAbort), (0x00000013#32, Instr.resPop),
      (0x000000A5#32, Instr.softReset)]) ∧
  (∀ w : Word, w.extractLsb' 8 24 ≠ 0 → decode w = .error (.operandFieldNotZero w)) ∧
  (∀ o : Byte, o ∉ [0x00, 0x01, 0x02, 0x03, 0x04, 0x10, 0x11, 0x12, 0x13, 0xA5] →
    decode (o.setWidth 32) = .error (.unknownOpcode o)) ∧
  ((List.range 256).filter (fun o => !(o ∈ [0x00, 0x01, 0x02, 0x03, 0x04, 0x10, 0x11, 0x12, 0x13, 0xA5]))).length = 246

/-- R102, R120: the words of the opcode map decode to their commands and encode back, and a word outside it does not
decode. -/
def Obligations.TableWordsDecode : Prop :=
  ([0x00, 0x01, 0x02, 0x03, 0x04, 0x10, 0x11, 0x12, 0x13, 0xA5].map (decodeTableWord 32) =
    [some .nop, some .txStart, some .txAbort, some .validateTx, some .validateRx, some .rxEnable, some .rxFinish,
      some .rxAbort, some .resPop, some .softReset]) ∧
  ([Instr.nop, .txStart, .txAbort, .validateTx, .validateRx, .rxEnable, .rxFinish, .rxAbort, .resPop,
      .softReset].map (fun i => decodeTableWord 32 (encode i).toNat) =
    [some .nop, some .txStart, some .txAbort, some .validateTx, some .validateRx, some .rxEnable, some .rxFinish,
      some .rxAbort, some .resPop, some .softReset]) ∧
  ([0x100, 0x05, 0x0F, 0x14, 0xA4, 0xFF, 0x1A5, 0x80000001].map (decodeTableWord 32) =
    [none, none, none, none, none, none, none, none])

/-! Steps, the register port and the interrupt output (R8, R20 to R57, R80 to R92, R282 to R284, R300). -/

/-- R26, R101: the step that writes a command's word to CMD runs that command, and nothing else but the model's own
schedule and answer of the port (log 1, log 2) changes; `withFetchWord` places such a step (log 11). -/
def Obligations.StepRunsTheCommandWritten : Prop :=
  (∀ (s : State) w i rest, s.inputs = .hostWrite 0x008 4 w :: rest → s.rstAsserted = false → decode w = .ok i →
    i.wellFormed = true → step s = exec i { s with inputs := rest, port := .written }) ∧
  (∀ (s : State) nbits w i, decodeTableWord nbits w = some i → i.wellFormed = true →
    step (s.withFetchWord nbits w) = exec i { s with rstAsserted := false, port := .written })

/-- R104 (with R101, R103): an illegal word and a command its engine's state refuses set STATUS.CMD_ERR and the CMD_ERR
event and change nothing else, the write to CMD completing normally; no other command sets STATUS.CMD_ERR. -/
def Obligations.RefusedCommandOnlySetsCmdErr : Prop :=
  (∀ s w rest, s.inputs = .hostWrite 0x008 4 w :: rest → s.rstAsserted = false → (∀ i, decode w ≠ .ok i) →
    step s = .next { s with inputs := rest, port := .written, cmdErr := true, irqStatus := s.irqStatus ||| 0x20 }) ∧
  (∀ i s,
    (i = .txStart ∧ s.tx.state = .run) ∨ (i = .rxEnable ∧ s.rx.state ≠ .idle) ∨
      (i = .rxFinish ∧ s.rx.state = .idle) ∨ (i = .resPop ∧ s.fifo = []) →
    exec i s = .next { s with cmdErr := true, irqStatus := s.irqStatus ||| 0x20 }) ∧
  (∀ i s t,
    ¬((i = .txStart ∧ s.tx.state = .run) ∨ (i = .rxEnable ∧ s.rx.state ≠ .idle) ∨
      (i = .rxFinish ∧ s.rx.state = .idle) ∨ (i = .resPop ∧ s.fifo = [])) →
    exec i s = .next t →
    (t.cmdErr = true → s.cmdErr = true) ∧ (t.irqStatus.getLsbD 5 = true → s.irqStatus.getLsbD 5 = true))

/-- R286 (and 93_implementation_defined.md, "It never gets stuck"): no step and no command stops with a fault or a
refusal, in any state. (In states that no run reaches, what the step then does is the model's choice, log 10.) -/
def Obligations.EveryStepAnswersNext : Prop :=
  (∀ s, ∃ t, step s = .next t) ∧ ∀ i s, ∃ t, exec i s = .next t

/-- R83: an access of a width other than 4 or at an offset that is no multiple of 4 ends with a bus error: a read's
data is 0 and no state changes. -/
def Obligations.BusErrorChangesNothing : Prop :=
  ∀ (s : State) (off : Offset) (width : Nat) (v : Word) (rest : List Input),
    s.rstAsserted = false → (width ≠ 4 ∨ off.toNat % 4 ≠ 0) →
    (s.inputs = .hostWrite off width v :: rest →
      step s = .next { s with inputs := rest, port := .writeError }) ∧
    (s.inputs = .hostRead off width :: rest →
      step s = .next { s with inputs := rest, port := .readError 0 })

/-- R86, R87, R57: an aligned word read returns the value of its target and changes nothing: a register's value, 0 for
CMD, the packed bytes of the TX payload RAM below MAXLEN, the head's payload where it is OK, a word of the MAG
buffer. What each register shows: the settings (R23, R32 to R48), IRQ_STATUS and IRQ_ENABLE (R29, R30), ISSUES (R31),
PARAMS0 and PARAMS1 (R39, R40); STATUS field by field (R27): the engines' states, the transmission's first 13 slots
being PREAMBLE, the pending abort, both outcomes, CMD_ERR, RES_OVF and the entries of the FIFO; the counters, modulo
2^32 (R49 to R54), RX_SYM_CNT being 0 while no region is in progress; and RES_STATUS field by field and the RES_*
registers (R55, R56), the fields of the FIFO's head, each 0 where the FIFO is empty; the codes of the outcomes and
reasons (R280, R56). -/
def Obligations.ReadsFollowTheMapAndChangeNothing : Prop :=
  (∀ (s : State) (off : Offset) (rest : List Input), s.rstAsserted = false → off.toNat % 4 = 0 →
    s.inputs = .hostRead off 4 :: rest →
    step s = .next { s with inputs := rest, port := .data (s.portRead off) }) ∧
  (∀ (s : State) o r, (o, r) ∈ regMap → s.portRead (BitVec.ofNat 15 o) = s.readReg r) ∧
  (∀ s : State, s.portRead 0x000 = 0x46534B07 ∧ s.portRead 0x008 = 0) ∧
  (∀ s : State,
    [0x004, 0x020, 0x024, 0x028, 0x048, 0x054, 0x060, 0x064].map s.portRead =
      [s.settings.ctrl, s.settings.sampleRate, s.settings.baseFreq, s.settings.freqSep, s.settings.txMaxSamples,
        s.settings.minSignal, s.settings.freqHintLo, s.settings.freqHintHi] ∧
    [0x02C, 0x030, 0x034, 0x038, 0x03C, 0x040, 0x044, 0x050, 0x058, 0x05C].map (fun o => (s.portRead o).toNat) =
      [s.settings.bitDurMs.toNat, s.settings.guardMs.toNat, s.settings.fadeInMs.toNat, s.settings.fadeOutMs.toNat,
        s.settings.amplitude.toNat, s.settings.redundancy.toNat, s.settings.txLen.toNat, s.settings.winOverlap.toNat,
        s.settings.errTol.toNat, s.settings.maxRetries.toNat] ∧
    (s.portRead 0x010).toNat = s.irqStatus.toNat ∧ (s.portRead 0x014).toNat = s.irqEnable.toNat ∧
    s.portRead 0x018 = s.issues ∧
    (s.params.legal = true →
      ((s.portRead 0x01C).extractLsb' 0 16).toNat = s.params.maxLen ∧
      ((s.portRead 0x01C).extractLsb' 16 4).toNat = s.params.resultDepth ∧
      (s.portRead 0x01C).extractLsb' 20 12 = 0 ∧ (s.portRead 0x04C).toNat = s.params.syncHistDepth)) ∧
  (∀ s : State,
    let w := s.portRead 0x00C
    (w.extractLsb' 0 2).toNat = (match s.tx.state with
      | .idle => 0
      | .run => if s.tx.slot < 13 then 1 else 2) ∧
    w.getLsbD 2 = s.tx.abort ∧
    (w.extractLsb' 4 3).toNat = (match s.rx.state with
      | .idle => 0
      | .scanning => 1
      | .locked => 2
      | .demod => 3) ∧
    w.extractLsb' 8 4 = s.tx.outcome.code ∧ w.extractLsb' 12 4 = s.rx.outcome.code ∧
    w.getLsbD 16 = s.cmdErr ∧ w.getLsbD 17 = s.resOvf ∧
    (s.fifo.length ≤ 15 → (w.extractLsb' 20 4).toNat = s.fifo.length) ∧
    (∀ k, k ∈ [3, 7, 18, 19] ∨ 24 ≤ k → w.getLsbD k = false)) ∧
  [OutcomeCode.none, .ok, .invalidSettings, .capacityExceeded, .noSignal, .frameMalformed, .integrityFailed,
    .cancelled].map OutcomeCode.code = [0, 1, 2, 3, 4, 5, 6, 7] ∧
  [Reason.none, .ecUnrecoverable, .tolerance, .crc, .version, .ecMismatch, .length, .truncated].map Reason.code =
    [0, 1, 2, 3, 4, 5, 6, 7] ∧
  (∀ s : State,
    [0x070, 0x074, 0x078, 0x07C, 0x080].map (fun o => (s.portRead o).toNat) =
      [s.tx.count % 2 ^ 32, s.tx.total % 2 ^ 32, s.rx.n % 2 ^ 32, s.rx.t % 2 ^ 32, s.rx.detStrength % 2 ^ 32] ∧
    (s.rx.state = .idle ∨ s.rx.state = .scanning → s.portRead 0x084 = 0) ∧
    (∀ r, s.rx.state = .locked ∨ s.rx.state = .demod → s.rx.reg = some r →
      (s.portRead 0x084).toNat = r.j % 2 ^ 32)) ∧
  (∀ s : State, s.fifo = [] →
    ∀ o ∈ [0x090, 0x094, 0x098, 0x09C, 0x0A0, 0x0A4, 0x0A8, 0x0AC, 0x0B0, 0x0B4, 0x0B8], s.portRead o = 0) ∧
  (∀ (s : State) (e : ResultEntry) (rest : List ResultEntry), s.fifo = e :: rest →
    let w := s.portRead 0x090
    w.getLsbD 0 = true ∧ w.extractLsb' 1 3 = 0 ∧ w.extractLsb' 4 4 = e.code.code ∧
    w.extractLsb' 8 4 = e.reason.code ∧ (w.getLsbD 12 = true ↔ 0 < e.erasures.toNat) ∧
    (w.getLsbD 13 = true ↔ 0 < e.corrected.toNat) ∧ w.extractLsb' 14 2 = 0 ∧ w.extractLsb' 16 4 = e.hflags ∧
    w.extractLsb' 20 12 = 0 ∧
    [0x094, 0x098, 0x09C].map (fun o => (s.portRead o).toNat) = [e.len.toNat, e.start % 2 ^ 32, e.stop % 2 ^ 32] ∧
    [0x0A0, 0x0A4, 0x0A8, 0x0AC, 0x0B0, 0x0B4, 0x0B8].map s.portRead =
      [e.freq, e.corrected, e.erasures, e.strength, e.symbols, e.sumw, e.sumr]) ∧
  (∀ (s : State) w q, w < 1024 → q < 4 →
    (s.portRead (BitVec.ofNat 15 (0x1000 + 4 * w))).extractLsb' (8 * q) 8 =
      if 4 * w + q < s.params.maxLen then s.txByte (4 * w + q) else 0) ∧
  (∀ (s : State) w q, w < 1024 → q < 4 →
    (s.portRead (BitVec.ofNat 15 (0x2000 + 4 * w))).extractLsb' (8 * q) 8 =
      match s.fifo with
      | [] => 0
      | e :: _ =>
        if e.code = .ok ∧ 4 * w + q < e.len.toNat then (e.payload.getD []).getD (4 * w + q) 0 else 0) ∧
  (∀ (s : State) k, k ≤ 2048 → s.portRead (BitVec.ofNat 15 (0x4000 + 4 * k)) = s.magWord k)

/-- R85, R90, R87: an aligned word write to the TX payload RAM window stores its four bytes, the first at the least
significant end, where they exist; while a transmission runs it has no effect; a write to the RX payload window or the
MAG buffer has none. -/
def Obligations.PayloadWritesFollowTheMap : Prop :=
  (∀ (s : State) (off : Offset) (v : Word) (rest : List Input), s.rstAsserted = false → off.toNat % 4 = 0 →
    off ≠ 0x008 → s.inputs = .hostWrite off 4 v :: rest →
    step s = .next (State.portWrite { s with inputs := rest, port := .written } off v)) ∧
  (∀ (s : State) w v, w < 1024 → s.tx.state = .run →
    s.portWrite (BitVec.ofNat 15 (0x1000 + 4 * w)) v = s) ∧
  (∀ (s : State) w v, w < 1024 → s.tx.state = .idle →
    s.portWrite (BitVec.ofNat 15 (0x1000 + 4 * w)) v =
      { s with txRam := (s.portWrite (BitVec.ofNat 15 (0x1000 + 4 * w)) v).txRam } ∧
    ∀ k, (s.portWrite (BitVec.ofNat 15 (0x1000 + 4 * w)) v).txByte k =
      if k / 4 = w ∧ k < s.params.maxLen then v.extractLsb' (8 * (k % 4)) 8 else s.txByte k) ∧
  (∀ (s : State) w v, w < 1024 → s.portWrite (BitVec.ofNat 15 (0x2000 + 4 * w)) v = s) ∧
  (∀ (s : State) k v, k ≤ 2048 → s.portWrite (BitVec.ofNat 15 (0x4000 + 4 * k)) v = s)

/-- R84: an unmapped offset reads 0 and ignores writes; so do the reserved bits of every register (CMD, whose write is
a command, has no defined bit to read and is not written here). -/
def Obligations.UnmappedAndReservedReadZeroIgnoreWrites : Prop :=
  (∀ (s : State) off v, unmappedOffset off = true → s.portRead off = 0 ∧ s.portWrite off v = s) ∧
  (∀ s, ReservedBitsOk s → ∀ o r, (o, r) ∈ regMap →
    s.portRead (BitVec.ofNat 15 o) &&& ~~~(definedBits r) = 0) ∧
  (∀ (s : State) o r v, (o, r) ∈ regMap → r ≠ .cmd →
    s.portWrite (BitVec.ofNat 15 o) v = s.portWrite (BitVec.ofNat 15 o) (v &&& definedBits r))

/-- R21, R28 (with R20, R26): a write to a RW register stores its defined fields, whatever their value, and changes no
other register and no memory; a RO register is unchanged; a 1 written to a W1C bit clears it and a 0 leaves it. -/
def Obligations.RegisterWritesFollowTheirAccessType : Prop :=
  (∀ (s : State) o r mask v, (o, r) ∈ regMap → (r, mask) ∈ rwMasks →
    (s.portWrite (BitVec.ofNat 15 o) v).portRead (BitVec.ofNat 15 o) = v &&& mask ∧
    s.portWrite (BitVec.ofNat 15 o) v =
      { s with settings := (s.portWrite (BitVec.ofNat 15 o) v).settings
               irqEnable := (s.portWrite (BitVec.ofNat 15 o) v).irqEnable } ∧
    ∀ r', r' ≠ r → (s.portWrite (BitVec.ofNat 15 o) v).readReg r' = s.readReg r') ∧
  (∀ (s : State) o r v, (o, r) ∈ regMap → r ∉ rwMasks.map Prod.fst → r ≠ .cmd → r ≠ .status → r ≠ .irqStatus →
    s.portWrite (BitVec.ofNat 15 o) v = s) ∧
  (∀ (s : State) v, s.portWrite 0x00C v =
    { s with
      cmdErr := if v.getLsbD 16 = true then false else s.cmdErr
      resOvf := if v.getLsbD 17 = true then false else s.resOvf }) ∧
  (∀ (s : State) v, s.portWrite 0x010 v = { s with irqStatus := (s.portWrite 0x010 v).irqStatus } ∧
    ∀ k, k < 6 → (s.portWrite 0x010 v).irqStatus.getLsbD k =
      if v.getLsbD k = true then false else s.irqStatus.getLsbD k)

/-- R283, R29 (with R284): `irq` is 1 exactly when some event bit is pending and enabled; an event bit that is set
stays set in every step but a HOST write of 1 to it, SOFT_RESET and reset. -/
def Obligations.EventBitsStayUntilCleared : Prop :=
  (∀ s : State, s.irq = true ↔
    ∃ k, k < 6 ∧ (s.portRead 0x010).getLsbD k = true ∧ (s.portRead 0x014).getLsbD k = true) ∧
  (∀ s t k, step s = .next t → s.irqStatus.getLsbD k = true →
    t.irqStatus.getLsbD k = true ∨ (s.rstAsserted = false ∧
      ((∃ v, s.inputs.head? = some (.hostWrite 0x010 4 v) ∧ v.getLsbD k = true) ∨
        s.inputs.head? = some (.hostWrite 0x008 4 0xA5) ∨ s.inputs.head? = some .resetAssert)))

/-- R282, R29: an event bit becomes set only in a step that is its event: TX_DONE where TX_START fails validation or the
budget, TX-EMIT sends the last sample of the plan, or TX-CANCEL ends the transmission (in the engine's turn, or on an
empty schedule: log 1); RX_LOCK where a sample locks a scanning session; RX_RESULT where a sample or RX_FINISH ends a
region and its entry is pushed; RX_DONE where RX_ENABLE is turned away for its settings, RX_FINISH ends a session, or
RX_ABORT does; RES_OVF, with STATUS.RES_OVF, where a sample or RX_FINISH ends a region and the FIFO is full; CMD_ERR,
with STATUS.CMD_ERR, where a word written to CMD is illegal or its command is refused. No step sets a bit while
`rst_n` is asserted. -/
def Obligations.EventBitsAreSetOnlyByTheirEvents : Prop :=
  ∀ s t k, step s = .next t → s.irqStatus.getLsbD k = false → t.irqStatus.getLsbD k = true →
    s.rstAsserted = false ∧
    ((k = 0 ∧ t.tx.state = .idle ∧
        ((s.inputs.head? = some (.hostWrite 0x008 4 0x01) ∧ s.tx.state = .idle ∧
            (t.tx.outcome = .invalidSettings ∨ t.tx.outcome = .capacityExceeded)) ∨
          (s.inputs.head? = some .sinkReady ∧ s.tx.state = .run ∧ t.tx.outcome = .ok) ∨
          ((s.inputs.head? = some .txTurn ∨ s.inputs = []) ∧ s.tx.state = .run ∧ s.tx.abort = true ∧ s.tx.i = 0 ∧
            t.tx.outcome = .cancelled))) ∨
      (k = 1 ∧ (∃ v, s.inputs.head? = some (.sourceOffers v)) ∧ s.rx.state = .scanning ∧ t.rx.state = .locked) ∨
      (k = 2 ∧ ((∃ v, s.inputs.head? = some (.sourceOffers v)) ∨ s.inputs.head? = some (.hostWrite 0x008 4 0x11)) ∧
        (s.rx.state = .locked ∨ s.rx.state = .demod) ∧ t.rx.reg = none ∧
        s.fifo.length < s.params.resultDepth ∧ ∃ e, t.fifo = s.fifo ++ [e]) ∨
      (k = 3 ∧ t.rx.state = .idle ∧
        ((s.inputs.head? = some (.hostWrite 0x008 4 0x10) ∧ s.rx.state = .idle ∧ t.rx.outcome = .invalidSettings) ∨
          (s.inputs.head? = some (.hostWrite 0x008 4 0x11) ∧ s.rx.state ≠ .idle ∧
            t.rx.outcome = if s.rx.lockedAny = true then .ok else .noSignal) ∨
          (s.inputs.head? = some (.hostWrite 0x008 4 0x12) ∧ s.rx.state ≠ .idle ∧ t.rx.outcome = .cancelled))) ∨
      (k = 4 ∧ ((∃ v, s.inputs.head? = some (.sourceOffers v)) ∨ s.inputs.head? = some (.hostWrite 0x008 4 0x11)) ∧
        (s.rx.state = .locked ∨ s.rx.state = .demod) ∧ t.rx.reg = none ∧
        s.params.resultDepth ≤ s.fifo.length ∧ t.fifo = s.fifo ∧ t.resOvf = true) ∨
      (k = 5 ∧ t.cmdErr = true ∧ ∃ w, s.inputs.head? = some (.hostWrite 0x008 4 w) ∧
        ((∀ i, decode w ≠ .ok i) ∨ ∃ i, decode w = .ok i ∧ Refused i s)))

/-- R300, R301, R305: the reset step leaves every register at its reset value, both engines idle and empty, the FIFO empty
and no snapshot; while `rst_n` stays asserted no access and no transfer is taken. The level of `rst_n` is the model's
field (log 4); the memories' contents are unspecified (R302) and nothing is said of them. The reset settings are legal
for both engines. -/
def Obligations.ResetStepRestoresEveryRegister : Prop :=
  (∀ s rest, s.inputs = .resetAssert :: rest → s.rstAsserted = false →
    ∃ t, step s = .next t ∧ t.params = s.params ∧ t.rstAsserted = true ∧
      (∀ r v, (r, v) ∈ resetValues → t.readReg r = v) ∧
      t.readReg .params0 = s.readReg .params0 ∧ t.readReg .params1 = s.readReg .params1 ∧
      t.tx = { state := .idle, plan := [], slot := 0, i := 0, phase := 0, abort := false, count := 0, total := 0,
               outcome := .none } ∧
      t.rx = { state := .idle, n := 0, x := [], t := 0, hist := [], scanStart := 0, lockedAny := false, reg := none,
               outcome := .none, detStrength := 0 } ∧
      t.fifo = [] ∧ t.txSnap = none ∧ t.rxSnap = none ∧ t.irq = false ∧ t.txStream = s.txStream) ∧
  (∀ s i rest, s.inputs = i :: rest → s.rstAsserted = true →
    step s = .next { s with inputs := rest, port := .none, rstAsserted := decide (i ≠ .resetRelease) }) ∧
  (∀ r v, (r, v) ∈ resetValues → State.reset.readReg r = v) ∧
  State.reset.readReg .params0 = 0x00040100 ∧ State.reset.readReg .params1 = 0x00001000 ∧
  exec .validateTx State.reset = .next State.reset ∧
  exec .validateRx State.reset = .next { State.reset with issues := 0x80000000 }

/-- R21, R85 (a RW register is written by a HOST word write), R121, R122 (a validation changes no setting), R129
(SOFT_RESET keeps the settings and IRQ_ENABLE), R300, R304 (reset does not): a setting or IRQ_ENABLE changes only in a
HOST word write to a RW register or in the reset step, and the parameters (R6, R39, R40) never change. -/
def Obligations.SettingsChangeOnlyByHostWrites : Prop :=
  ∀ s t, step s = .next t → t.params = s.params ∧
    (t.settings ≠ s.settings ∨ t.irqEnable ≠ s.irqEnable →
      s.rstAsserted = false ∧
        (s.inputs.head? = some .resetAssert ∨
          ∃ o r v, (o, r) ∈ regMap ∧ r ∈ rwMasks.map Prod.fst ∧
            s.inputs.head? = some (.hostWrite (BitVec.ofNat 15 o) 4 v)))

/-- R312, R258: the head of a non-empty result FIFO changes only through RES_POP, SOFT_RESET and reset; no engine step
changes it. -/
def Obligations.ResultHeadIsStable : Prop :=
  ∀ s t e rest, step s = .next t → s.fifo = e :: rest →
    (∃ rest', t.fifo = e :: rest') ∨ (s.rstAsserted = false ∧
      (s.inputs.head? = some (.hostWrite 0x008 4 0x13) ∨ s.inputs.head? = some (.hostWrite 0x008 4 0xA5) ∨
        s.inputs.head? = some .resetAssert))

/-! Commands (R120 to R129, R181, R184, R201, R260, R261). Each equation with `.next` says where the command completes;
what it does not write is unchanged, every byte of the TX payload RAM and every word of the MAG buffer included. -/

/-- R120: NOP is legal in every state and changes nothing; the word 0x00000100 is not NOP. -/
def Obligations.NopChangesNothing : Prop :=
  (∀ s, exec .nop s = .next s) ∧ decode 0x00000000 = .ok .nop ∧
    decode 0x00000100 = .error (.operandFieldNotZero 0x00000100) ∧
    (∀ s : State, s.statusWord = 0x00000011 → ∃ t, exec .nop s = .next t ∧ t.statusWord = 0x00000011)

/-- R121, R123, R124: VALIDATE_TX completes in every state, writes ISSUES alone, and sets each issue bit exactly on its
condition, every quantity read from the registers and compared exactly. -/
def Obligations.ValidateTxReportsEveryIssue : Prop :=
  ∀ s : State, ∃ w : Word, exec .validateTx s = .next { s with issues := w } ∧
    exec .validateTx { s with issues := w } = .next { s with issues := w } ∧
    let st := s.settings
    let fs := st.sampleRate.toNat
    let b := (st.ctrl.extractLsb' 4 3).toNat
    let ec := (st.ctrl.extractLsb' 2 2).toNat
    let nb := st.bitDurMs.toNat * fs / 1000
    let ng := st.guardMs.toNat * fs / 1000
    let nfi := st.fadeInMs.toNat * fs / 1000
    let nfo := st.fadeOutMs.toNat * fs / 1000
    let ne := if st.ctrl.getLsbD 0 = true then nb + ng else nb
    (w.getLsbD 0 = true ↔ 32768 < st.amplitude.toNat) ∧
    (w.getLsbD 1 = true ↔ nb = 0) ∧
    (w.getLsbD 2 = true ↔
      fs = 0 ∨ ((1 ≤ b ∧ b ≤ 4) ∧ fs ≤ 2 * (st.baseFreq.toNat + st.freqSep.toNat * 2 ^ b))) ∧
    (w.getLsbD 3 = true ↔ ec = 3) ∧
    (w.getLsbD 4 = true ↔ ¬(1 ≤ b ∧ b ≤ 4)) ∧
    (w.getLsbD 8 = true ↔ ec = 1 ∧ st.redundancy.toNat % 2 = 0) ∧
    (w.getLsbD 9 = true ↔ st.freqSep.toNat = 0) ∧
    (w.getLsbD 10 = true ↔ ne < nfi + nfo) ∧
    (w.getLsbD 11 = true ↔ s.params.maxLen < st.txLen.toNat) ∧
    (∀ k, k ∉ [0, 1, 2, 3, 4, 8, 9, 10, 11] → w.getLsbD k = false)

/-- R122, R123, R125: VALIDATE_RX completes in every state, writes ISSUES alone, with KIND set, and sets each issue bit
exactly on its condition. -/
def Obligations.ValidateRxReportsEveryIssue : Prop :=
  ∀ s : State, ∃ w : Word, exec .validateRx s = .next { s with issues := w } ∧
    exec .validateRx { s with issues := w } = .next { s with issues := w } ∧
    let st := s.settings
    let fs := st.sampleRate.toNat
    let base := st.baseFreq.toNat
    let sep := st.freqSep.toNat
    let b := (st.ctrl.extractLsb' 4 3).toNat
    let ec := (st.ctrl.extractLsb' 2 2).toNat
    let ws := (st.ctrl.extractLsb' 13 3).toNat
    let nb := st.bitDurMs.toNat * fs / 1000
    let ng := st.guardMs.toNat * fs / 1000
    let n := 2 ^ (8 + ws)
    let h := n - n * st.winOverlap.toNat / 256
    let bin := fun f => (2 * f * n + fs) / (2 * fs)
    (w.getLsbD 1 = true ↔ nb = 0) ∧
    (w.getLsbD 2 = true ↔ fs = 0 ∨ ((1 ≤ b ∧ b ≤ 4) ∧ fs ≤ 2 * (base + sep * 2 ^ b))) ∧
    (w.getLsbD 3 = true ↔ ec = 3) ∧
    (w.getLsbD 4 = true ↔ ¬(1 ≤ b ∧ b ≤ 4)) ∧
    (w.getLsbD 5 = true ↔ (st.ctrl.extractLsb' 8 2).toNat = 3) ∧
    (w.getLsbD 6 = true ↔ 3 < (st.ctrl.extractLsb' 10 3).toNat) ∧
    (w.getLsbD 7 = true ↔ 4 < ws) ∧
    (w.getLsbD 8 = true ↔ ec = 1 ∧ st.redundancy.toNat % 2 = 0) ∧
    (w.getLsbD 9 = true ↔ sep = 0) ∧
    (w.getLsbD 12 = true ↔ ws ≤ 4 ∧ nb < n + 2 * h) ∧
    (w.getLsbD 13 = true ↔ ws ≤ 4 ∧ (1 ≤ b ∧ b ≤ 4) ∧ 0 < fs ∧
      ∃ k, k < 2 ^ b ∧ bin (base + k * sep) = bin (base + (k + 1) * sep)) ∧
    (w.getLsbD 14 = true ↔
      ws ≤ 4 ∧ 0 < nb + ng ∧ s.params.syncHistDepth < (12 * (nb + ng) + h - 1) / h + 2) ∧
    w.getLsbD 31 = true ∧
    (∀ k, k ∉ [1, 2, 3, 4, 5, 6, 7, 8, 9, 12, 13, 14, 31] → w.getLsbD k = false)

/-- R128: RES_POP removes the head of a non-empty FIFO and touches nothing else, IRQ_STATUS.RX_RESULT included, so
that RES_COUNT and the RES_* registers show the rest; an empty FIFO refuses it. -/
def Obligations.ResPopRemovesTheHead : Prop :=
  (∀ s e rest, s.fifo = e :: rest → exec .resPop s = .next { s with fifo := rest }) ∧
  (∀ s e e' rest t, s.fifo = e :: e' :: rest → exec .resPop s = .next t → t.readReg .resStatus = resStatusOf e') ∧
  (∀ s e e' t, s.fifo = [e, e'] → exec .resPop s = .next t → (t.readReg .status).extractLsb' 20 4 = 1) ∧
  (∀ s, s.fifo = [] → exec .resPop s = .next { s with cmdErr := true, irqStatus := s.irqStatus ||| 0x20 })

/-- R129: SOFT_RESET stops both engines at once and clears the FIFO, the counters, STATUS, IRQ_STATUS and ISSUES, with
no event; every setting, IRQ_ENABLE and both memories are kept, and `irq` is 0 after it. R304: it leaves what the reset
step leaves, but for the settings, IRQ_ENABLE and the memories, which it keeps; so the snapshots, which R129 does not
list, take their reset value too (log 12). (`resets`, the level of `rst_n`, `inputs` and `port` are the model's own:
logs 1 to 4.) -/
def Obligations.SoftResetKeepsTheSettings : Prop :=
  (∀ s, ∃ t, exec .softReset s = .next t ∧
    t = { s with
      tx := { state := .idle, plan := [], slot := 0, i := 0, phase := 0, abort := false, count := 0, total := 0,
              outcome := .none }
      txSnap := none
      rx := { state := .idle, n := 0, x := [], t := 0, hist := [], scanStart := 0, lockedAny := false, reg := none,
              outcome := .none, detStrength := 0 }
      rxSnap := none
      fifo := []
      cmdErr := false
      resOvf := false
      irqStatus := 0
      issues := 0 } ∧
    t.irq = false ∧ t.readReg .status = 0) ∧
  (∀ s t rest, s.inputs = .resetAssert :: rest → s.rstAsserted = false → step s = .next t →
    exec .softReset s = .next
      { t with
        settings := s.settings, irqEnable := s.irqEnable, txRam := s.txRam, mag := s.mag
        resets := s.resets, rstAsserted := false, inputs := s.inputs, port := s.port })

/-- R181, R182, R172, R174, R60: TX_START from IDLE with legal settings and a frame that fits the budget starts the
transmission: the snapshot, the plan and the total are those of the rules, ISSUES is 0 and nothing else changes. -/
def Obligations.TxStartStartsTheTransmission : Prop :=
  ∀ (s : State) (ec : EcLevel),
    let st := s.settings
    let fs := st.sampleRate.toNat
    let b := (st.ctrl.extractLsb' 4 3).toNat
    let nb := st.bitDurMs.toNat * fs / 1000
    let ng := st.guardMs.toNat * fs / 1000
    let cb := ecEncode ec st.redundancy.toNat (bitsOf
      (frameBody ec (st.ctrl.getLsbD 18) (st.ctrl.getLsbD 17) ((List.range st.txLen.toNat).map s.txByte)))
    let total := (13 + (cb.length + b - 1) / b) * (nb + ng)
    s.tx.state = .idle → anyIssue (issuesTx s.params st) = false → st.ctrl.extractLsb' 2 2 = ec.code →
    (st.txMaxSamples.toNat = 0 ∨ total ≤ st.txMaxSamples.toNat) →
    exec .txStart s = .next
      { s with
        issues := 0
        txSnap := some
          { fs := fs, m := 2 ^ b, b := b, nb := nb, ng := ng, s := nb + ng
            ne := if st.ctrl.getLsbD 0 = true then nb + ng else nb
            nfi := st.fadeInMs.toNat * fs / 1000, nfo := st.fadeOutMs.toNat * fs / 1000
            shape := st.ctrl.getLsbD 1, gmode := st.ctrl.getLsbD 0, amp := st.amplitude
            inc := (List.range (2 ^ b + 1)).map (fun k =>
              BitVec.ofNat 32 ((st.baseFreq.toNat + k * st.freqSep.toNat) * 2 ^ 32 / fs)) }
        tx := { state := .run, plan := slotPlan (2 ^ b) b cb, slot := 0, i := 0, phase := 0, abort := false
                count := 0, total := total, outcome := .none } }

/-- R181, R182, R104: where TX_START is turned away: while a transmission runs it is refused; from IDLE an issue gives
INVALID_SETTINGS, and legal settings with a transmission over the budget CAPACITY_EXCEEDED, each with TX_DONE, both
counters 0, and nothing else changed. R201, R104: where RX_ENABLE is: while a session runs it is refused; from IDLE an
issue other than KIND gives INVALID_SETTINGS with RX_DONE, and the counts and DET_STRENGTH keep their values. -/
def Obligations.StartCommandsTurnedAway : Prop :=
  (∀ s, s.tx.state = .run →
    exec .txStart s = .next { s with cmdErr := true, irqStatus := s.irqStatus ||| 0x20 }) ∧
  (∀ s, s.tx.state = .idle → anyIssue (issuesTx s.params s.settings) = true →
    exec .txStart s = .next
      { s with
        issues := issuesTx s.params s.settings
        irqStatus := s.irqStatus ||| 0x01
        tx := { s.tx with count := 0, total := 0, outcome := .invalidSettings } }) ∧
  (∀ (s : State) (ec : EcLevel),
    let st := s.settings
    let fs := st.sampleRate.toNat
    let b := (st.ctrl.extractLsb' 4 3).toNat
    let total := (13 + (codedLen ec st.redundancy.toNat (40 + 8 * st.txLen.toNat) + b - 1) / b) *
      (st.bitDurMs.toNat * fs / 1000 + st.guardMs.toNat * fs / 1000)
    s.tx.state = .idle → anyIssue (issuesTx s.params st) = false → st.ctrl.extractLsb' 2 2 = ec.code →
    st.txMaxSamples.toNat ≠ 0 → st.txMaxSamples.toNat < total →
    exec .txStart s = .next
      { s with
        issues := 0
        irqStatus := s.irqStatus ||| 0x01
        tx := { s.tx with count := 0, total := 0, outcome := .capacityExceeded } }) ∧
  (∀ s, s.rx.state ≠ .idle →
    exec .rxEnable s = .next { s with cmdErr := true, irqStatus := s.irqStatus ||| 0x20 }) ∧
  (∀ s, s.rx.state = .idle → (∃ k, k < 31 ∧ (issuesRx s.params s.settings).getLsbD k = true) →
    exec .rxEnable s = .next
      { s with
        issues := issuesRx s.params s.settings
        irqStatus := s.irqStatus ||| 0x08
        rx := { s.rx with outcome := .invalidSettings } })

/-- R175, R177: the slot plan: 13 preamble slots on the sync tone M, keyed by the Barker pattern, then one slot for each
data symbol, on the tone whose number is the symbol, its first bit the most significant, the last padded with at most
b - 1 zeros; every sample of a silent slot is 0. -/
def Obligations.SlotPlanFollowsItsRule : Prop :=
  ∀ (m b : Nat) (cb : List Bool), 1 ≤ b →
    let d := (cb.length + b - 1) / b
    (slotPlan m b cb).length = 13 + d ∧ cb.length ≤ d * b ∧ d * b - cb.length ≤ b - 1 ∧
    (∀ i, i < 13 → (slotPlan m b cb)[i]? =
      some { tone := m, on := [true, true, true, true, true, false, false, true, true, false, true, false, true].getD i false }) ∧
    (∀ j, j < d → ∃ sym, (slotPlan m b cb)[13 + j]? = some { tone := sym, on := true } ∧ sym < 2 ^ b ∧
      sym = ((List.range b).map (fun k => (cb.getD (j * b + k) false).toNat * 2 ^ (b - 1 - k))).sum) ∧
    (∀ (sn : TxSnap) (sl : Slot) (i : Nat) (p : Word), sl.on = false →
      sampleValue sn.amp.toNat (envelope sn sl.on i) p = 0 ∧ sampleOf sn sl i p = 0)

/-- R184, R105: TX_ABORT marks a running transmission, to stop at its next slot boundary, and a second one changes
nothing; at a boundary no sample of the next slot is offered any more; while IDLE it is accepted and has no effect. -/
def Obligations.TxAbortMarksTheTransmission : Prop :=
  (∀ s, s.tx.state = .run → exec .txAbort s = .next { s with tx := { s.tx with abort := true } }) ∧
  (∀ s, s.tx.state = .run → s.tx.abort = true → exec .txAbort s = .next s) ∧
  (∀ s t, s.tx.state = .run → s.tx.i = 0 → exec .txAbort s = .next t →
    t.cancelEnabled = true ∧ t.emitEnabled = false) ∧
  (∀ s, s.tx.state = .idle → exec .txAbort s = .next s)

/-- R201, R202, R70, R71: RX_ENABLE from IDLE with legal settings starts a session: the snapshot is that of R202, the
session starts empty, ISSUES is KIND alone, and nothing else changes, the result FIFO included. -/
def Obligations.RxEnableStartsASession : Prop :=
  ∀ (s : State) (ec : EcLevel),
    let st := s.settings
    let fs := st.sampleRate.toNat
    let b := (st.ctrl.extractLsb' 4 3).toNat
    let nb := st.bitDurMs.toNat * fs / 1000
    let ng := st.guardMs.toNat * fs / 1000
    let n := 2 ^ (8 + (st.ctrl.extractLsb' 13 3).toNat)
    let h := n - n * st.winOverlap.toNat / 256
    s.rx.state = .idle → anyIssue (issuesRx s.params st) = false → st.ctrl.extractLsb' 2 2 = ec.code →
    exec .rxEnable s = .next
      { s with
        issues := 0x80000000
        rxSnap := some
          { fs := fs, m := 2 ^ b, b := b, nb := nb, ng := ng, s := nb + ng, base := st.baseFreq, n := n, h := h
            wf := st.ctrl.extractLsb' 10 3
            bin := (List.range (2 ^ b + 1)).map (fun k =>
              (2 * (st.baseFreq.toNat + k * st.freqSep.toNat) * n + fs) / (2 * fs))
            k := (12 * (nb + ng) + h - 1) / h
            off := (List.range 13).map (fun i => (i * (nb + ng) + h - 1) / h)
            ec := ec, r := st.redundancy.toNat
            margin := if st.ctrl.extractLsb' 8 2 = 0 then 8 else if st.ctrl.extractLsb' 8 2 = 1 then 4 else 2
            minSig := st.minSignal, errTol := st.errTol }
        rx := { state := .scanning, n := 0, x := [], t := 0, hist := [], scanStart := 0, lockedAny := false
                reg := none, outcome := .none, detStrength := 0 } }

/-- R260, R256, R258: RX_FINISH ends the session, with OK where it locked and NO_SIGNAL where it did not, and RX_DONE;
a region in progress becomes a TRUNCATED result, its header shown if it was decoded, which is dropped where the FIFO is
full; while IDLE it is refused. -/
def Obligations.RxFinishEndsTheSession : Prop :=
  (∀ s, s.rx.state = .scanning → exec .rxFinish s = .next
    { s with
      irqStatus := s.irqStatus ||| 0x08
      rx := { s.rx with
        state := .idle, reg := none, outcome := if s.rx.lockedAny = true then .ok else .noSignal } }) ∧
  (∀ s sn r, s.rx.state = .locked ∨ s.rx.state = .demod → s.rxSnap = some sn → s.rx.reg = some r →
    let stop := r.s0 + (13 + r.j) * sn.s
    let res : ResultEntry :=
      { code := .frameMalformed, reason := .truncated
        hflags := (r.hdr.map Header.hflags).getD 0, len := (r.hdr.map (fun h => BitVec.ofNat 16 h.len)).getD 0
        start := r.s0, stop := stop, freq := sn.base, corrected := 0
        erasures := BitVec.ofNat 32 (min r.erasures (2 ^ 32 - 1))
        strength := BitVec.ofNat 32 (min r.strength (2 ^ 32 - 1))
        symbols := BitVec.ofNat 32 (min r.j (2 ^ 32 - 1)), sumw := r.sumw, sumr := r.sumr, payload := none }
    let rx : RxEngine :=
      { s.rx with
        state := .idle, reg := none, scanStart := (stop + sn.h - 1) / sn.h
        outcome := if s.rx.lockedAny = true then .ok else .noSignal }
    (s.fifo.length < s.params.resultDepth → exec .rxFinish s = .next
      { s with irqStatus := s.irqStatus ||| 0x0C, fifo := s.fifo ++ [res], rx := rx }) ∧
    (s.params.resultDepth ≤ s.fifo.length → exec .rxFinish s = .next
      { s with irqStatus := s.irqStatus ||| 0x18, resOvf := true, rx := rx })) ∧
  (∀ s, s.rx.state = .idle →
    exec .rxFinish s = .next { s with cmdErr := true, irqStatus := s.irqStatus ||| 0x20 })

/-- R261, R105: RX_ABORT drops the region in progress and ends the session at once, CANCELLED, with RX_DONE, keeping
the results already pushed; while IDLE it is accepted and has no effect, and so is a TX_ABORT while no transmission
runs. -/
def Obligations.RxAbortDropsTheRegion : Prop :=
  (∀ s, s.rx.state ≠ .idle → exec .rxAbort s = .next
    { s with
      irqStatus := s.irqStatus ||| 0x08
      rx := { s.rx with state := .idle, reg := none, outcome := .cancelled } }) ∧
  (∀ s, s.rx.state = .idle → exec .rxAbort s = .next s) ∧
  (∀ s, s.tx.state = .idle → exec .txAbort s = .next s)

/-- The frame of every command (R104, R120 to R129, R181, R184, R201, R260, R261, R291): the settings, IRQ_ENABLE, the
parameters and both memories are unchanged, every byte and word read as before; the TX commands leave the RX engine,
its snapshot and the FIFO as they are, and the RX commands, RES_POP and the validations the TX engine and its snapshot;
the engines' steps leave the other engine alone. -/
def Obligations.EnginesAndMemoriesAreIndependent : Prop :=
  (∀ i s t, exec i s = .next t →
    t.settings = s.settings ∧ t.irqEnable = s.irqEnable ∧ t.params = s.params ∧ t.rstAsserted = s.rstAsserted ∧
      t.txStream = s.txStream ∧ (∀ k, t.txByte k = s.txByte k) ∧ (∀ k, t.magWord k = s.magWord k)) ∧
  (∀ i s t, i = .nop ∨ i = .validateTx ∨ i = .validateRx ∨ i = .txStart ∨ i = .txAbort → exec i s = .next t →
    t.rx = s.rx ∧ t.rxSnap = s.rxSnap ∧ t.fifo = s.fifo ∧ t.resOvf = s.resOvf) ∧
  (∀ i s t, i = .nop ∨ i = .validateTx ∨ i = .validateRx ∨ i = .rxEnable ∨ i = .rxFinish ∨ i = .rxAbort ∨
      i = .resPop → exec i s = .next t →
    t.tx = s.tx ∧ t.txSnap = s.txSnap) ∧
  (∀ s t v rest, s.inputs = .sourceOffers v :: rest → s.rstAsserted = false → step s = .next t →
    t.tx = s.tx ∧ t.txSnap = s.txSnap ∧ t.settings = s.settings ∧ t.issues = s.issues ∧ t.cmdErr = s.cmdErr ∧
      t.txStream = s.txStream ∧ ∀ k, t.txByte k = s.txByte k) ∧
  (∀ s t rest, s.inputs = .sinkReady :: rest ∨ s.inputs = .txTurn :: rest → s.rstAsserted = false →
    step s = .next t →
    t.rx = s.rx ∧ t.rxSnap = s.rxSnap ∧ t.fifo = s.fifo ∧ t.settings = s.settings ∧ t.issues = s.issues ∧
      t.cmdErr = s.cmdErr ∧ t.resOvf = s.resOvf ∧ (∀ k, t.txByte k = s.txByte k) ∧
      ∀ k, t.magWord k = s.magWord k)

/-! The TX engine (R170 to R187). -/

/-- R183, R180: TX-EMIT hands the sample of the position to the stream, adds the slot's increment to the phase, silent
slots included, and advances; the last sample of the plan ends the transmission with OK and TX_DONE and clears a
pending abort. -/
def Obligations.EmitSendsOneSample : Prop :=
  ∀ (s : State) (sn : TxSnap) (sl : Slot) (rest : List Input),
    s.inputs = .sinkReady :: rest → s.rstAsserted = false → s.tx.state = .run →
    ¬(s.tx.abort = true ∧ s.tx.i = 0) → s.txSnap = some sn → s.tx.plan[s.tx.slot]? = some sl →
    let y : Int := (sn.amp.toNat : Int) * (envelope sn sl.on s.tx.i : Int) * sine s.tx.phase / 2 ^ 30
    let tx1 : TxEngine := { s.tx with phase := s.tx.phase + sn.inc.getD sl.tone 0, count := s.tx.count + 1 }
    let s1 : State :=
      { s with inputs := rest, port := .none, txStream := s.txStream ++ [BitVec.ofInt 16 y] }
    (s.tx.i + 1 ≠ sn.s → step s = .next { s1 with tx := { tx1 with i := s.tx.i + 1 } }) ∧
    (s.tx.i + 1 = sn.s → s.tx.slot + 1 ≠ s.tx.plan.length →
      step s = .next { s1 with tx := { tx1 with i := 0, slot := s.tx.slot + 1 } }) ∧
    (s.tx.i + 1 = sn.s → s.tx.slot + 1 = s.tx.plan.length →
      step s = .next
        { s1 with
          irqStatus := s.irqStatus ||| 0x01
          tx := { tx1 with i := 0, slot := s.tx.slot + 1, state := .idle, abort := false, outcome := .ok } })

/-- R170: the block hands over a sample exactly where TX-EMIT is enabled and the sink takes one: a running transmission,
no abort due at its slot boundary, not during reset; at every other time, whatever the step, it hands over none. -/
def Obligations.SamplesLeaveOnlyByEmission : Prop :=
  (∀ s t, step s = .next t → t.txStream ≠ s.txStream →
    s.inputs.head? = some .sinkReady ∧ s.rstAsserted = false ∧ s.tx.state = .run ∧
      ¬(s.tx.abort = true ∧ s.tx.i = 0) ∧ ∃ y, t.txStream = s.txStream ++ [y]) ∧
  (∀ s t, TransmissionOk s → step s = .next t → s.inputs.head? = some .sinkReady → s.rstAsserted = false →
    s.tx.state = .run → ¬(s.tx.abort = true ∧ s.tx.i = 0) → ∃ y, t.txStream = s.txStream ++ [y])

/-- R185: TX-CANCEL, enabled in a run with an abort pending at a slot boundary, needs no sink: it ends the transmission
CANCELLED with TX_DONE and keeps the counts, the slot and the phase. It happens in the engine's own turn and where the
schedule is empty (log 1). -/
def Obligations.CancelStopsAtASlotBoundary : Prop :=
  ∀ (s : State), s.rstAsserted = false → s.tx.state = .run → s.tx.abort = true → s.tx.i = 0 →
    (∀ rest, s.inputs = .txTurn :: rest → step s = .next
      { s with
        inputs := rest, port := .none, irqStatus := s.irqStatus ||| 0x01
        tx := { s.tx with state := .idle, abort := false, outcome := .cancelled } }) ∧
    (s.inputs = [] → step s = .next
      { s with
        port := .none, irqStatus := s.irqStatus ||| 0x01
        tx := { s.tx with state := .idle, abort := false, outcome := .cancelled } })

/-- R186, R25, R90: while a transmission runs and goes on, no step of any agent changes its snapshot, its plan, its
total or a byte of the TX payload RAM; and no HOST write but one to CMD changes the TX engine at all. -/
def Obligations.RunningTransmissionKeepsItsPlan : Prop :=
  (∀ s t, step s = .next t → s.tx.state = .run → t.tx.state = .run →
    t.txSnap = s.txSnap ∧ t.tx.plan = s.tx.plan ∧ t.tx.total = s.tx.total ∧ ∀ k, t.txByte k = s.txByte k) ∧
  (∀ s t off width v rest, s.inputs = .hostWrite off width v :: rest → off ≠ 0x008 → step s = .next t →
    t.tx = s.tx ∧ t.txSnap = s.txSnap ∧ t.txStream = s.txStream)

/-- R61, R181, R183, R185, R186 (an invariant): every step keeps the shape of a transmission: a running one has its
snapshot, its position lies inside its plan, its count is its position and its total its plan's samples; an OK outcome
means that every sample was sent. -/
def Obligations.StepKeepsTransmissionShape : Prop :=
  ∀ s t, TransmissionOk s → step s = .next t → TransmissionOk t

/-- R187 (an invariant): every step keeps the formula of the stream: the samples that a transmission, running or ended
with OK or CANCELLED, has sent are those of its snapshot and its plan alone, and its phase is the sum of their
increments; once a transmission has ended with OK, the last TX_TOTAL samples handed over are all the samples of its
plan, in order. -/
def Obligations.StepKeepsStreamFormula : Prop :=
  (∀ s t, TransmissionOk s → StreamOk s → step s = .next t → StreamOk t) ∧
  (∀ s, StreamOk s → s.tx.outcome = .ok → ∃ sn before, s.txSnap = some sn ∧
    s.txStream = before ++ streamSamples sn s.tx.plan (s.tx.plan.length * sn.s) ∧
    s.tx.total = s.tx.plan.length * sn.s ∧
    (streamSamples sn s.tx.plan (s.tx.plan.length * sn.s)).length = s.tx.total)

/-- R180: with A at most 32768 a sample never clips: it lies in -32767 to 32767 and its 16-bit word is its value; full
amplitude and envelope give SIN itself, zero amplitude 0, and the division rounds down. -/
def Obligations.SamplesNeverClip : Prop :=
  (∀ (sn : TxSnap) (sl : Slot) (i : Nat) (p : Word), sn.amp.toNat ≤ 32768 →
    -32767 ≤ sampleValue sn.amp.toNat (envelope sn sl.on i) p ∧
      sampleValue sn.amp.toNat (envelope sn sl.on i) p ≤ 32767 ∧
      (sampleOf sn sl i p).toInt = sampleValue sn.amp.toNat (envelope sn sl.on i) p) ∧
  (∀ p, sampleValue 32768 32768 p = sine p) ∧
  (∀ env p, sampleValue 0 env p = 0) ∧
  (∀ a env p, 2 ^ 30 * sampleValue a env p ≤ (a : Int) * env * sine p ∧
    (a : Int) * env * sine p < 2 ^ 30 * (sampleValue a env p + 1)) ∧
  sampleValue 9830 32768 0xC0000000 = -9830

/-- R178: the envelope: 0 in a silent slot and past the span, a fade of the snapshot's shape in the first Nfi and the
last Nfo samples of the span, full in between, and at most 32768; the fades of a legal snapshot do not overlap. -/
def Obligations.EnvelopeFollowsItsRule : Prop :=
  ∀ (sn : TxSnap) (i : Nat),
    envelope sn false i = 0 ∧ (sn.ne ≤ i → envelope sn true i = 0) ∧ envelope sn true i ≤ 32768 ∧
    (sn.nfi + sn.nfo ≤ sn.ne →
      (sn.nfi ≤ i → i < sn.ne - sn.nfo → envelope sn true i = 32768) ∧
      (i < sn.nfi → envelope sn true i =
        if sn.shape = true then raisedCosine (i + 1) (sn.nfi + 1) else 32768 * (i + 1) / (sn.nfi + 1)) ∧
      (sn.ne - sn.nfo ≤ i → i < sn.ne → envelope sn true i =
        if sn.shape = true then raisedCosine (sn.ne - i) (sn.nfo + 1) else 32768 * (sn.ne - i) / (sn.nfo + 1)))

/-- R174, R173: the snapshot holds the increment of each tone 0 to M, that of f(k) = BASE_FREQ + k·FREQ_SEP; below
Nyquist the truncation changes nothing and it is below 2^31. -/
def Obligations.PhaseIncrementsFollowTheTones : Prop :=
  (∀ (st : Settings) (k : Nat), k ≤ 2 ^ (st.ctrl.extractLsb' 4 3).toNat →
    let f := st.baseFreq.toNat + k * st.freqSep.toNat
    let fs := st.sampleRate.toNat
    (txSnapOf st).inc.length = 2 ^ (st.ctrl.extractLsb' 4 3).toNat + 1 ∧
    ((txSnapOf st).inc.getD k 0).toNat = f * 2 ^ 32 / fs % 2 ^ 32 ∧
    (2 * f < fs → ((txSnapOf st).inc.getD k 0).toNat = f * 2 ^ 32 / fs ∧ f * 2 ^ 32 / fs < 2 ^ 31)) ∧
  [19000, 20000, 21000].map (phaseInc 44100) = [0x6E4B7700, 0x74198ABD, 0x79E79E79] ∧
  [1000, 1500, 2000].map (phaseInc 8000) = [0x20000000, 0x30000000, 0x40000000]

/-- R176 (S1 to S3), R179 (C1 to C3), R206 (M1, M2): the properties the spec states of SIN, RC and SpecMag; they are
functions of their arguments, and a magnitude is a 32-bit word, by their types. Nothing else is known of their values
(log 5, log 6, log 7). -/
def Obligations.ConfigurationFunctionsKeepTheirProperties : Prop :=
  (∀ p, -32767 ≤ sine p ∧ sine p ≤ 32767) ∧ sine 0 = 0 ∧ sine 0x80000000 = 0 ∧ sine 0x40000000 = 32767 ∧
    sine 0xC0000000 = -32767 ∧
  (∀ p q, 1 ≤ q → p ≤ q → raisedCosine p q ≤ 32768) ∧
  (∀ q, 1 ≤ q → raisedCosine 0 q = 0 ∧ raisedCosine q q = 32768) ∧
  (∀ p q, 1 ≤ q → p < q → raisedCosine p q ≤ raisedCosine (p + 1) q) ∧
  (∀ (wf : BitVec 3) (x : List Sample) (k : Nat), (∀ v ∈ x, v = 0) → (specMag wf x k).toNat = 0)

/-! The frame codec and the error-correction codec (R140 to R159). -/

/-- R143, R144, R145, R141: the CRC byte by byte and bit by bit, with its check value; the frame body is the header, the payload and the CRC, most significant byte first, 5 + L bytes;
its bits are those of its bytes in byte order, each byte most significant bit first; the examples of both rules. -/
def Obligations.FrameBodyBitsAndCrc : Prop :=
  crc16 [0x31, 0x32, 0x33, 0x34, 0x35, 0x36, 0x37, 0x38, 0x39] = 0x29B1 ∧ crc16 [] = 0xFFFF ∧
  (∀ l x, crc16 (l ++ [x]) =
    (List.range 8).foldl
      (fun (c : BitVec 16) _ => if c.getLsbD 15 = true then (c <<< 1) ^^^ 0x1021#16 else c <<< 1)
      (crc16 l ^^^ ((x.setWidth 16) <<< 8))) ∧
  (∀ (ec : EcLevel) (compressed encrypted : Bool) (payload : List Byte),
    let head := [1#4 ++ ec.code ++ BitVec.ofBool compressed ++ BitVec.ofBool encrypted,
      BitVec.ofNat 8 (payload.length / 256), BitVec.ofNat 8 (payload.length % 256)]
    let crc := crc16 (head ++ payload)
    let body := frameBody ec compressed encrypted payload
    body = head ++ payload ++ [crc.extractLsb' 8 8, crc.extractLsb' 0 8] ∧
    body.length = 5 + payload.length ∧ (bitsOf body).length = 40 + 8 * payload.length ∧
    ∀ i k, i < 5 + payload.length → k < 8 →
      (bitsOf body)[8 * i + k]? = body[i]?.map (fun x => x.getLsbD (7 - k))) ∧
  frameBody .none false false [0x41] = [0x10, 0x00, 0x01, 0x41, 0xF4, 0xB3] ∧
  bitsOf [0x10, 0x00, 0x01] =
    [false, false, false, true, false, false, false, false, false, false, false, false, false, false, false, false,
     false, false, false, false, false, false, false, true]

/-- R150 to R153: the three encoders, and the coded length of each; the sixteen codewords of R152's table. -/
def Obligations.EncodersAndCodedLengths : Prop :=
  (∀ r f, ecEncode .none r f = f) ∧
  (∀ r b f, ecEncode .basic r [] = [] ∧ ecEncode .basic r (b :: f) = List.replicate r b ++ ecEncode .basic r f) ∧
  (∀ r a b c d f, ecEncode .advanced r [] = [] ∧
    ecEncode .advanced r (a :: b :: c :: d :: f) =
      [a ^^ b ^^ d, a ^^ c ^^ d, a, b ^^ c ^^ d, b, c, d,
        (a ^^ b ^^ d) ^^ (a ^^ c ^^ d) ^^ a ^^ (b ^^ c ^^ d) ^^ b ^^ c ^^ d] ++ ecEncode .advanced r f) ∧
  (∀ ec r f, 4 ∣ f.length → (ecEncode ec r f).length =
    match ec with
    | .none => f.length
    | .basic => r * f.length
    | .advanced => 2 * f.length) ∧
  (List.range 16).map (fun v => ecEncode .advanced 3 ([3, 2, 1, 0].map (fun k => v.testBit k))) =
    [0b00000000, 0b11010010, 0b01010101, 0b10000111, 0b10011001, 0b01001011, 0b11001100, 0b00011110,
     0b11100001, 0b00110011, 0b10110100, 0b01100110, 0b01111000, 0b10101010, 0b00101101, 0b11111111].map
      (fun w => (List.range 8).map (fun k => Nat.testBit w (7 - k)))

/-- R147: what is sent is received: at every level, for every payload that fits, the coded bits of a frame, whatever
pad bits follow, pass the header stage with the flags and the length sent, and the body stage with the payload and
corrected = 0. -/
def Obligations.FrameCodecRoundTrip : Prop :=
  ∀ (maxLen : Nat) (sn : RxSnap) (compressed encrypted : Bool) (payload : List Byte) (pad : List CodedBit) (r : Region),
    maxLen ≤ 4096 → payload.length ≤ maxLen → (sn.ec = .basic → sn.r % 2 = 1) →
    let f := bitsOf (frameBody sn.ec compressed encrypted payload)
    let coded := (ecEncode sn.ec sn.r f).map CodedBit.bit
    ecDecode sn.ec sn.r (40 + 8 * payload.length) coded = .decoded f 0 ∧
    (r.cb = coded ++ pad →
      headerStage maxLen sn r = .goOn
        { r with
          hdr := some
            { hflags := sn.ec.code ++ BitVec.ofBool compressed ++ BitVec.ofBool encrypted, len := payload.length }
          d := some (cdiv (codedLen sn.ec sn.r (40 + 8 * payload.length)) sn.b) } ∧
      bodyCheck sn r payload.length = .finish r .ok .none 0 (some payload))

/-- R157 (and the document's §8): at level advanced, with at most one bit inverted in each block, the body is recovered
and the corrections counted are the errors made. -/
def Obligations.AdvancedCorrectsOneErrorPerBlock : Prop :=
  ∀ (f : List Bool) (errors : List (Option (Fin 8))), 4 ∣ f.length → errors.length ≤ f.length / 4 →
    ecDecode .advanced 0 f.length ((corruptBlocks errors (encodeAdvanced f)).map CodedBit.bit) =
      .decoded f (errors.countP Option.isSome)

/-- R157: at level advanced, two bits inverted in one block, after blocks with at most one each, are unrecoverable, with
the corrections made so far; an erased bit is decoded as 0; the examples of the rule. -/
def Obligations.AdvancedStopsAtADoubleError : Prop :=
  (∀ (f : List Bool) (errors : List (Option (Fin 8))) (a b c d : Bool) (p q : Fin 8) (rest : List CodedBit) (n : Nat),
    4 ∣ f.length → errors.length ≤ f.length / 4 → p ≠ q → f.length + 4 ≤ n → 4 ∣ n →
    ecDecode .advanced 0 n
      ((corruptBlocks errors (encodeAdvanced f)).map CodedBit.bit ++
        (invertAt (invertAt (codeword a b c d) p) q).map CodedBit.bit ++ rest) =
      .unrecoverable (errors.countP Option.isSome)) ∧
  (∀ (r n : Nat) (cb : List CodedBit),
    ecDecode .advanced r n cb =
      ecDecode .advanced r n (cb.map (fun x => if x = .erased then .bit false else x))) ∧
  [[1, 1, 0, 1, 0, 0, 1, 0], [1, 1, 0, 1, 0, 0, 1, 1], [1, 1, 0, 0, 0, 0, 1, 0], [1, 1, 1, 0, 0, 0, 1, 0]].map
      (fun blk => ecDecode .advanced 0 4 (blk.map (fun k => CodedBit.bit (k == 1)))) =
    [.decoded [false, false, false, true] 0, .decoded [false, false, false, true] 1,
      .decoded [false, false, false, true] 1, .unrecoverable 0]

/-- R155, R156: level none: an erasure anywhere is unrecoverable with corrected 0, else the coded bits are the body.
Level basic: where every group's copies vote for a bit, erased copies left out, those bits are the body and
the copies outvoted the corrections; the first group whose votes are even is unrecoverable, with the corrections made
before it. -/
def Obligations.NoneAndBasicLevelDecode : Prop :=
  (∀ (r n : Nat) (cb : List CodedBit), CodedBit.erased ∈ cb → ecDecode .none r n cb = .unrecoverable 0) ∧
  (∀ (r n : Nat) (cb : List CodedBit), CodedBit.erased ∉ cb →
    ∃ bits, cb = bits.map CodedBit.bit ∧ ecDecode .none r n cb = .decoded bits 0) ∧
  (∀ (r : Nat) (bits : List Bool) (groups : List (List CodedBit)), List.Forall₂ (votesFor r) bits groups →
    ecDecode .basic r bits.length groups.flatten =
      .decoded bits ((List.zipWith (fun b grp => grp.count (CodedBit.bit (!b))) bits groups).sum)) ∧
  (∀ (r n : Nat) (bits : List Bool) (groups : List (List CodedBit)) (tie rest : List CodedBit),
    List.Forall₂ (votesFor r) bits groups → tie.length = r →
    tie.count (.bit true) = tie.count (.bit false) → bits.length < n →
    ecDecode .basic r n (groups.flatten ++ tie ++ rest) =
      .unrecoverable ((List.zipWith (fun b grp => grp.count (CodedBit.bit (!b))) bits groups).sum)) ∧
  ecDecode .basic 3 1 [.bit true, .bit true, .bit false] = .decoded [true] 1 ∧
  ecDecode .basic 3 1 [.bit true, .erased, .bit false] = .unrecoverable 0 ∧
  ecDecode .basic 3 1 [.erased, .erased, .bit true] = .decoded [true] 0

/-- R159: at every level the decode of the header's coded bits agrees with the decode of the whole body: the same 24
bits, with no more corrections, and unrecoverable only where the body is. -/
def Obligations.HeaderDecodeAgreesWithTheBody : Prop :=
  ∀ (ec : EcLevel) (r n : Nat) (cb : List CodedBit), 24 ≤ n → 4 ∣ n → cb.length = codedLen ec r n →
    (∀ bits c, ecDecode ec r n cb = .decoded bits c →
      bits.length = n ∧
      ∃ hc, hc ≤ c ∧ ecDecode ec r 24 (cb.take (codedLen ec r 24)) = .decoded (bits.take 24) hc) ∧
    (∀ hc, ecDecode ec r 24 (cb.take (codedLen ec r 24)) = .unrecoverable hc →
      ecDecode ec r n cb = .unrecoverable hc)

/-- R175, R232: the receiver's bits of a symbol are the inverse of the modulator's symbols: the symbols of coded bits,
decided without an erasure, give the coded bits back, followed by the zeros of the padding. -/
def Obligations.SymbolsRoundTrip : Prop :=
  ∀ (b : Nat) (cb : List Bool), 1 ≤ b →
    (symbolsOf b cb).flatMap (fun w => symbolBits b (some w)) =
      (cb ++ List.replicate (symbolCount b cb.length * b - cb.length) false).map CodedBit.bit

/-! The spectral analyzer, the detector, the demodulator and the assembler (R200 to R263). -/

/-- R203, R209: the bin of a frequency is the nearest, halves rounded up, and below Nyquist at most N/2; the hop lies in
N/256 to N for every overlap; the examples of both rules. -/
def Obligations.BinsAndHopFollowTheirRules : Prop :=
  (∀ fs n f, 0 < fs →
    (2 * binOf fs n f) * fs ≤ 2 * f * n + fs ∧ 2 * f * n + fs < (2 * binOf fs n f + 2) * fs) ∧
  (∀ fs n f, 2 * f < fs → 2 ∣ n → binOf fs n f ≤ n / 2) ∧
  [19000, 20000, 21000].map (binOf 44100 1024) = [441, 464, 488] ∧
  [1000, 1500, 2000].map (binOf 8000 256) = [32, 48, 64] ∧
  (∀ st : Settings, 1 ≤ st.hop ∧ st.hop ≤ st.winN ∧ st.winN / 256 ≤ st.hop) ∧
  (∀ (st : Settings) (o h : Nat), (o, h) ∈ [(0, 1024), (128, 512), (192, 256), (255, 4)] →
    st.ctrl.extractLsb' 13 3 = 2 → st.winOverlap = BitVec.ofNat 8 o → st.winN = 1024 ∧ st.hop = h)

/-- R207, R210 (with R200, R205, R220, R222): RX-SAMPLE: while IDLE the sample is discarded; in a session it is appended
and counted, and where it completes no analysis frame nothing else changes. A sample that completes a frame counts it,
adds the sync tone's energy to the history, and stores the magnitudes of its N samples in all 2049 words, those past N/2
as 0, unless MAG_FREEZE, read live, is 1; the TX engine, the settings and the TX payload RAM stand. -/
def Obligations.RxSampleTakesOneSample : Prop :=
  (∀ s v rest, s.inputs = .sourceOffers v :: rest → s.rstAsserted = false → s.rx.state = .idle →
    step s = .next { s with inputs := rest, port := .none }) ∧
  (∀ s v rest sn, s.inputs = .sourceOffers v :: rest → s.rstAsserted = false → s.rx.state ≠ .idle →
    s.rxSnap = some sn → ¬(sn.n ≤ s.rx.n + 1 ∧ (s.rx.n + 1 - sn.n) % sn.h = 0) →
    step s = .next
      { s with inputs := rest, port := .none, rx := { s.rx with x := s.rx.x ++ [v], n := s.rx.n + 1 } }) ∧
  (∀ s v rest sn t, s.inputs = .sourceOffers v :: rest → s.rstAsserted = false → s.rx.state ≠ .idle →
    s.rxSnap = some sn → sn.n ≤ s.rx.n + 1 → (s.rx.n + 1 - sn.n) % sn.h = 0 → step s = .next t →
    let mag := specMag sn.wf (((s.rx.x ++ [v]).drop (s.rx.t * sn.h)).take sn.n)
    t.rx.x = s.rx.x ++ [v] ∧ t.rx.n = s.rx.n + 1 ∧ t.rx.t = s.rx.t + 1 ∧
    t.rx.hist = s.rx.hist ++ [mag (sn.bin.getD sn.m 0)] ∧
    (∀ k, k ≤ 2048 → t.magWord k =
      if s.settings.ctrl.getLsbD 16 = true then s.magWord k else if k ≤ sn.n / 2 then mag k else 0) ∧
    t.rxSnap = s.rxSnap ∧ t.tx = s.tx ∧ t.settings = s.settings ∧ ∀ k, t.txByte k = s.txByte k)

/-- R220, R207, R234: a sample that completes an analysis frame hands the frame to the detector while scanning; while a
region is in progress nothing searches, and at the frame of its next symbol the symbol is demodulated and the region
assembled, which goes on with it or ends it. Nothing else changes but the MAG buffer (R210) and the model's own schedule
and answer of the port (log 1, log 2). -/
def Obligations.FramesGoToTheDetectorOrTheRegion : Prop :=
  ∀ s v rest sn t, s.inputs = .sourceOffers v :: rest → s.rstAsserted = false → s.rx.state ≠ .idle →
    s.rxSnap = some sn → sn.n ≤ s.rx.n + 1 → (s.rx.n + 1 - sn.n) % sn.h = 0 → step s = .next t →
    let mag := specMag sn.wf (((s.rx.x ++ [v]).drop (s.rx.t * sn.h)).take sn.n)
    let rx : RxEngine :=
      { s.rx with
        x := s.rx.x ++ [v], n := s.rx.n + 1, t := s.rx.t + 1
        hist := s.rx.hist ++ [mag (sn.bin.getD sn.m 0)] }
    let s1 : State := { s with inputs := rest, port := .none, mag := t.mag, rx := rx }
    (s.rx.state = .scanning → t = s1.detect sn s.rx.t) ∧
    (∀ r, s.rx.state = .locked ∨ s.rx.state = .demod → s.rx.reg = some r →
      (s.rx.t ≠ r.tf → t = s1) ∧
      (s.rx.t = r.tf →
        let r1 := demodRegion sn r ((List.range sn.m).map (fun k => (mag (sn.bin.getD k 0)).toNat))
        let s2 : State := { s1 with rx := { rx with reg := some r1, state := .demod } }
        (∀ r2, assembleRegion s.params.maxLen sn r1 = .goOn r2 →
          t = { s2 with rx := { rx with reg := some r2, state := .demod } }) ∧
        (∀ r2 code reason c payload, assembleRegion s.params.maxLen sn r1 = .finish r2 code reason c payload →
          t = s2.endRegion sn r2 code reason c payload)))

/-- R223: the preamble correlation is 4 times the energies of the nine on slots minus 9 times those of the four off
slots; a steady tone, and silence, give 0 and are never taken for a preamble. -/
def Obligations.PreambleCorrelation : Prop :=
  (∀ (hist : List Word) (t0 o0 o1 o2 o3 o4 o5 o6 o7 o8 o9 o10 o11 o12 : Nat),
    let e := fun o => ((hist.getD (t0 + o) 0).toNat : Int)
    correlation [o0, o1, o2, o3, o4, o5, o6, o7, o8, o9, o10, o11, o12] hist t0 =
      4 * (e o0 + e o1 + e o2 + e o3 + e o4 + e o7 + e o8 + e o10 + e o12) -
        9 * (e o5 + e o6 + e o9 + e o11)) ∧
  (∀ (hist : List Word) (off : List Nat) (t0 : Nat) (c : Word), off.length = 13 →
    (∀ o ∈ off, hist.getD (t0 + o) 0 = c) → correlation off hist t0 = 0) ∧
  (∀ (sn : RxSnap) (hist : List Word) (t0 : Nat) (c : Word), sn.off.length = 13 →
    (∀ o ∈ sn.off, hist.getD (t0 + o) 0 = c) → candidateTaken sn hist t0 = false)

/-- R224, R225: at frame t of a scanning session the candidate t - K - 1 is taken exactly where its correlation is
positive, reaches 36·MIN_SIGNAL and is not less than the next candidate's; then the region opens with its strength the
correlation div 36, and RX_LOCK is set; else nothing happens. Under validation the first symbol's frame is still to
come. -/
def Obligations.LockOpensARegion : Prop :=
  (∀ (s : State) (sn : RxSnap) (t : Nat),
    let t0 := t - sn.k - 1
    let c0 := correlation sn.off s.rx.hist t0
    let c1 := correlation sn.off s.rx.hist (t0 + 1)
    (sn.k + 1 ≤ t ∧ s.rx.scanStart ≤ t0 ∧ 0 < c0 ∧ 36 * (sn.minSig.toNat : Int) ≤ c0 ∧ c1 ≤ c0 →
      s.detect sn t =
        { s with
          irqStatus := s.irqStatus ||| 0x02
          rx := { s.rx with
            state := .locked, lockedAny := true, detStrength := (c0 / 36).toNat
            reg := some
              { t0 := t0, s0 := t0 * sn.h, strength := (c0 / 36).toNat, j := 0
                tf := t0 + (13 * sn.s + sn.h - 1) / sn.h, cb := [], erasures := 0, sumw := 0, sumr := 0
                hdr := none, d := none } } }) ∧
    (¬(sn.k + 1 ≤ t ∧ s.rx.scanStart ≤ t0 ∧ 0 < c0 ∧ 36 * (sn.minSig.toNat : Int) ≤ c0 ∧ c1 ≤ c0) →
      s.detect sn t = s)) ∧
  (∀ (sn : RxSnap) (t : Nat), snapOk sn → sn.k + 1 ≤ t → t < symbolFrame sn (t - sn.k - 1) 0)

/-- R227: a session that hears only silence never locks and ends with NO_SIGNAL: RX_ENABLE starts such a session, a
sample of 0 keeps it so and pushes nothing, and RX_FINISH then gives NO_SIGNAL with no result. -/
def Obligations.SilentSessionFindsNoSignal : Prop :=
  (∀ s t, exec .rxEnable s = .next t → s.rx.state = .idle → t.rx.outcome ≠ .invalidSettings → SilentSession t) ∧
  (∀ s t rest, SilentSession s → s.inputs = .sourceOffers 0 :: rest → s.rstAsserted = false → step s = .next t →
    SilentSession t ∧ t.fifo = s.fifo ∧ t.irqStatus = s.irqStatus) ∧
  (∀ s, SilentSession s → exec .rxFinish s = .next
    { s with
      irqStatus := s.irqStatus ||| 0x08
      rx := { s.rx with state := .idle, reg := none, outcome := .noSignal } })

/-- R232, R231: a symbol is decided exactly where the least tone of greatest magnitude is not silent and dominates every
other tone by the margin; it gives the symbol's bits, most significant first, and anything else, a tie included, an
erasure of b bits; the examples of the rule. -/
def Obligations.SymbolDecision : Prop :=
  (∀ (margin w : Nat) (m : List Nat), 2 ≤ m.length →
    (decideSymbol margin m = some w ↔
      w < m.length ∧ 0 < m.getD w 0 ∧ (∀ k, k < m.length → m.getD k 0 ≤ m.getD w 0) ∧
        (∀ k, k < w → m.getD k 0 < m.getD w 0) ∧
        ∀ k, k < m.length → k ≠ w → (8 + margin) * m.getD k 0 ≤ 8 * m.getD w 0)) ∧
  (∀ (margin j k : Nat) (m : List Nat), 0 < margin → j < k → k < m.length → m.getD j 0 = m.getD k 0 →
    (∀ l, l < m.length → m.getD l 0 ≤ m.getD j 0) → decideSymbol margin m = none) ∧
  (∀ b w k, k < b → (symbolBits b (some w))[k]? = some (.bit (w.testBit (b - 1 - k)))) ∧
  (∀ b, symbolBits b none = List.replicate b .erased) ∧
  [[1000, 0], [0, 1000], [1000, 700], [1000, 600], [500, 500], [0, 0]].map (decideSymbol 4) =
    [some 0, some 1, none, some 0, none, none]

/-- R234, R233, R230: Demod adds the b bits of one symbol to the region, counts it and an erasure, adds the winner's and
the runner-up's magnitudes to the sums, which saturate at 2^32 - 1, and sets the next symbol's frame. -/
def Obligations.DemodulationAddsOneSymbol : Prop :=
  (∀ (sn : RxSnap) (r : Region) (m : List Nat),
    demodRegion sn r m =
      { r with
        cb := r.cb ++ symbolBits sn.b (decideSymbol sn.margin m)
        erasures := r.erasures + (if decideSymbol sn.margin m = none then 1 else 0)
        sumw := BitVec.ofNat 32 (min (r.sumw.toNat + greatest m) (2 ^ 32 - 1))
        sumr := BitVec.ofNat 32 (min (r.sumr.toNat + runnerUp m) (2 ^ 32 - 1))
        j := r.j + 1
        tf := r.t0 + ((13 + (r.j + 1)) * sn.s + sn.h - 1) / sn.h } ∧
    r.sumw.toNat ≤ (demodRegion sn r m).sumw.toNat ∧ r.sumr.toNat ≤ (demodRegion sn r m).sumr.toNat ∧
    (demodRegion sn r m).cb.length = r.cb.length + sn.b) ∧
  (∀ m : List Nat, (∀ k ∈ m, k ≤ greatest m) ∧ (m ≠ [] → greatest m ∈ m) ∧ runnerUp m ≤ greatest m)

/-- R256, R257, R258: ending a region pushes its one result, with the header shown if it was decoded and the payload
only for OK, or drops it where the FIFO is full and sets RES_OVF; scanning resumes at the first frame at or after the
region's end. -/
def Obligations.EndOfARegionPushesOneResult : Prop :=
  ∀ (s : State) (sn : RxSnap) (r : Region) (code : OutcomeCode) (reason : Reason) (c : Nat)
    (payload : Option (List Byte)),
    let stop := r.s0 + (13 + r.j) * sn.s
    let res : ResultEntry :=
      { code := code, reason := reason
        hflags := (r.hdr.map Header.hflags).getD 0, len := (r.hdr.map (fun h => BitVec.ofNat 16 h.len)).getD 0
        start := r.s0, stop := stop, freq := sn.base, corrected := BitVec.ofNat 32 (min c (2 ^ 32 - 1))
        erasures := BitVec.ofNat 32 (min r.erasures (2 ^ 32 - 1))
        strength := BitVec.ofNat 32 (min r.strength (2 ^ 32 - 1))
        symbols := BitVec.ofNat 32 (min r.j (2 ^ 32 - 1)), sumw := r.sumw, sumr := r.sumr
        payload := if code = .ok then payload else none }
    let rx : RxEngine := { s.rx with state := .scanning, reg := none, scanStart := (stop + sn.h - 1) / sn.h }
    (s.fifo.length < s.params.resultDepth →
      s.endRegion sn r code reason c payload =
        { s with irqStatus := s.irqStatus ||| 0x04, fifo := s.fifo ++ [res], rx := rx }) ∧
    (s.params.resultDepth ≤ s.fifo.length →
      s.endRegion sn r code reason c payload =
        { s with irqStatus := s.irqStatus ||| 0x10, resOvf := true, rx := rx })

/-- R250, R251, R146: the header stage: unrecoverable, then the version, the level and the length, in that order, each
failure ending the region; else the region goes on with its symbol count. The header is shown once it is decoded.
R253, R254: the body stage: unrecoverable, then the tolerance, then the CRC, in that order; else OK with the payload.
R250, R252: the header stage runs once the header's coded bits are in, the body stage at the last symbol. -/
def Obligations.AssemblyChecksInOrder : Prop :=
  (∀ (maxLen : Nat) (sn : RxSnap) (r : Region),
    (∀ hc, ecDecode sn.ec sn.r 24 (r.cb.take (codedLen sn.ec sn.r 24)) = .unrecoverable hc →
      headerStage maxLen sn r = .finish r .integrityFailed .ecUnrecoverable hc none) ∧
    (∀ (h0 h1 h2 : Byte) hc,
      ecDecode sn.ec sn.r 24 (r.cb.take (codedLen sn.ec sn.r 24)) = .decoded (bitsOf [h0, h1, h2]) hc →
      let len := 256 * h1.toNat + h2.toNat
      let r1 : Region := { r with hdr := some { hflags := h0.extractLsb' 0 4, len := len } }
      (h0.extractLsb' 4 4 ≠ 1 → headerStage maxLen sn r = .finish r1 .frameMalformed .version hc none) ∧
      (h0.extractLsb' 4 4 = 1 → h0.extractLsb' 2 2 ≠ sn.ec.code →
        headerStage maxLen sn r = .finish r1 .frameMalformed .ecMismatch hc none) ∧
      (h0.extractLsb' 4 4 = 1 → h0.extractLsb' 2 2 = sn.ec.code → maxLen < len →
        headerStage maxLen sn r = .finish r1 .frameMalformed .length hc none) ∧
      (h0.extractLsb' 4 4 = 1 → h0.extractLsb' 2 2 = sn.ec.code → len ≤ maxLen →
        headerStage maxLen sn r = .goOn
          { r1 with d := some ((codedLen sn.ec sn.r (40 + 8 * len) + sn.b - 1) / sn.b) }))) ∧
  (∀ (sn : RxSnap) (r : Region) (len : Nat),
    (∀ c, ecDecode sn.ec sn.r (40 + 8 * len) (r.cb.take (codedLen sn.ec sn.r (40 + 8 * len))) = .unrecoverable c →
      bodyCheck sn r len = .finish r .integrityFailed .ecUnrecoverable c none) ∧
    (∀ (head payload : List Byte) (c1 c0 : Byte) c, head.length = 3 → payload.length = len →
      ecDecode sn.ec sn.r (40 + 8 * len) (r.cb.take (codedLen sn.ec sn.r (40 + 8 * len))) =
        .decoded (bitsOf (head ++ payload ++ [c1, c0])) c →
      (sn.errTol.toNat < c → bodyCheck sn r len = .finish r .integrityFailed .tolerance c none) ∧
      (c ≤ sn.errTol.toNat → (crc16 (head ++ payload)).toNat ≠ 256 * c1.toNat + c0.toNat →
        bodyCheck sn r len = .finish r .integrityFailed .crc c none) ∧
      (c ≤ sn.errTol.toNat → (crc16 (head ++ payload)).toNat = 256 * c1.toNat + c0.toNat →
        bodyCheck sn r len = .finish r .ok .none c (some payload)))) ∧
  (∀ (maxLen : Nat) (sn : RxSnap) (r : Region),
    (r.hdr = none → r.j * sn.b < codedLen sn.ec sn.r 24 → assembleRegion maxLen sn r = .goOn r) ∧
    (∀ q code reason c payload, r.hdr = none → codedLen sn.ec sn.r 24 ≤ r.j * sn.b →
      headerStage maxLen sn r = .finish q code reason c payload →
      assembleRegion maxLen sn r = .finish q code reason c payload) ∧
    (∀ q h d, r.hdr = none → codedLen sn.ec sn.r 24 ≤ r.j * sn.b → headerStage maxLen sn r = .goOn q →
      q.hdr = some h → q.d = some d →
      assembleRegion maxLen sn r = if q.j < d then .goOn q else bodyCheck sn q h.len) ∧
    (∀ h d, r.hdr = some h → r.d = some d →
      assembleRegion maxLen sn r = if r.j < d then .goOn r else bodyCheck sn r h.len))

/-! Invariants of every step, from every state that meets them. -/

/-- R57: every step keeps both memories in their canonical form, with no byte at or above MAXLEN and no word above
2048 listed. -/
def Obligations.StepKeepsTheMemoryForm : Prop :=
  ∀ s t, MemoriesOk s → step s = .next t → MemoriesOk t

/-- R281, R255 (with R23, R31 for the reserved bits): every step keeps each outcome field, each result's code and
reason, and the reserved bits of CTRL and ISSUES among the values the spec lists; so STATUS and RES_STATUS never show
a code of 8 to 15. -/
def Obligations.StepKeepsTheOutcomeCodes : Prop :=
  (∀ s t, OutcomesOk s → step s = .next t → OutcomesOk t) ∧
  (∀ s t, ReservedBitsOk s → step s = .next t → ReservedBitsOk t) ∧
  (∀ s, OutcomesOk s →
    ((s.readReg .status).extractLsb' 8 4).toNat ∈ [0, 1, 2, 3, 7] ∧
    ((s.readReg .status).extractLsb' 12 4).toNat ∈ [0, 1, 2, 4, 7] ∧
    (s.fifo = [] → s.readReg .resStatus = 0) ∧
    (s.fifo ≠ [] → (s.readReg .resStatus).getLsbD 0 = true ∧
      ((s.readReg .resStatus).extractLsb' 4 4).toNat ∈ [1, 5, 6] ∧
      ((s.readReg .resStatus).extractLsb' 8 4 = 0 ↔ ((s.readReg .resStatus).extractLsb' 4 4).toNat = 1)))

/-- R58, R71, R72, R207, R225, R252, R259: every step keeps the shape of the session and of the results: the counts
agree with the samples and frames, a region exists exactly while one is locked and its next symbol's frame is still to
come, the FIFO holds at most RESULT_DEPTH entries, and an entry has a payload exactly when it is OK, of L bytes. -/
def Obligations.StepKeepsTheSessionAndResults : Prop :=
  ∀ s t, s.params.legal = true → SessionOk s → ResultsOk s → step s = .next t → SessionOk t ∧ ResultsOk t

/-- The state right after reset meets the invariant, and its transmission has no formula to keep. -/
def Obligations.ResetStateMeetsTheInvariant : Prop :=
  Inv State.reset ∧ StreamOk State.reset ∧ State.reset.irq = false
end

