-- ==== Sys2Proof/Laws/Codec.lean ====
section
/-! SUPPORT. The frame codec's small lemmas: bits and bytes (R145), coded lengths (R153), and what each decoder does with
one more group or block (R155 to R157). -/

namespace Sys2Proof.Machine

open Sys2Proof

/-! Ceiling division (R12). -/

theorem cdiv_le_iff (a b c : Nat) (hb : 0 < b) : cdiv a b ≤ c ↔ a ≤ c * b := by
  unfold cdiv
  rw [Nat.div_le_iff_le_mul_add_pred hb, Nat.mul_comm c b]
  omega

theorem le_cdiv_mul (a b : Nat) (hb : 0 < b) : a ≤ cdiv a b * b := (cdiv_le_iff a b _ hb).1 (le_refl _)

theorem cdiv_mul_lt (a b : Nat) (hb : 0 < b) : cdiv a b * b < a + b := by
  have h : cdiv a b * b ≤ a + b - 1 := Nat.div_mul_le_self _ _
  omega

theorem lt_cdiv_iff (a b c : Nat) (hb : 0 < b) : c < cdiv a b ↔ c * b < a := by
  have h := cdiv_le_iff a b c hb
  omega

/-! Bits and bytes (R145). -/

@[simp] theorem byteBits_length (x : Byte) : (byteBits x).length = 8 := by simp [byteBits]

theorem byteBits_eq (x : Byte) : byteBits x =
    [x.getLsbD 7, x.getLsbD 6, x.getLsbD 5, x.getLsbD 4, x.getLsbD 3, x.getLsbD 2, x.getLsbD 1, x.getLsbD 0] := rfl

@[simp] theorem bitsOf_nil : bitsOf [] = [] := rfl

@[simp] theorem bitsOf_cons (x : Byte) (l : List Byte) : bitsOf (x :: l) = byteBits x ++ bitsOf l := rfl

@[simp] theorem bitsOf_append (l l' : List Byte) : bitsOf (l ++ l') = bitsOf l ++ bitsOf l' := by
  simp [bitsOf]

@[simp] theorem bitsOf_length (l : List Byte) : (bitsOf l).length = 8 * l.length := by
  induction l with
  | nil => rfl
  | cons x l ih => simp [ih]; omega

/-- R145: bit `8i + k` of a byte sequence is bit `7 - k` of its byte `i`. -/
theorem getElem?_bitsOf (l : List Byte) (i k : Nat) (hk : k < 8) :
    (bitsOf l)[8 * i + k]? = l[i]?.map (fun x => x.getLsbD (7 - k)) := by
  induction l generalizing i with
  | nil => simp
  | cons x l ih =>
    cases i with
    | zero => simp [List.getElem?_append_left, hk, byteBits]
    | succ i =>
      rw [bitsOf_cons, List.getElem?_append_right (by simp; omega), byteBits_length,
        show 8 * (i + 1) + k - 8 = 8 * i + k by omega, ih i]
      simp

/-- R250 after R145: the byte of a byte's bits. -/
theorem byteOfBits_byteBits (x : Byte) : byteOfBits (byteBits x) = x := by
  rw [byteBits_eq]
  apply BitVec.eq_of_getLsbD_eq
  intro k hk
  interval_cases k <;> simp [byteOfBits]

/-- R250 after R145: the bytes of a byte sequence's bits. -/
theorem bytesOf_bitsOf (l : List Byte) : bytesOf (bitsOf l) = l := by
  induction l with
  | nil => rfl
  | cons x l ih =>
    rw [bitsOf_cons, byteBits_eq]
    simp only [List.cons_append, List.nil_append, bytesOf, ih]
    rw [← byteBits_eq, byteOfBits_byteBits]

@[simp] theorem withCrc_length (l : List Byte) : (withCrc l).length = l.length + 2 := by simp [withCrc]

@[simp] theorem headerBytes_length (ec : EcLevel) (c e : Bool) (n : Nat) : (headerBytes ec c e n).length = 3 := rfl

/-- R144, R145: the body has 40 + 8L bits. -/
theorem frameBody_bits_length (ec : EcLevel) (c e : Bool) (payload : List Byte) :
    (bitsOf (frameBody ec c e payload)).length = 40 + 8 * payload.length := by
  simp [frameBody]
  omega

/-! Encoding (R150 to R153). -/

@[simp] theorem codeword_length (a b c d : Bool) : (codeword a b c d).length = 8 := rfl

/-- A sequence of whole nibbles is empty, or a nibble and the rest. -/
theorem nibbles_cases (l : List Bool) (h : 4 ∣ l.length) :
    l = [] ∨ ∃ a b c d rest, l = a :: b :: c :: d :: rest ∧ 4 ∣ rest.length := by
  match l, h with
  | [], _ => exact .inl rfl
  | [_], h => simp at h
  | [_, _], h => simp at h
  | [_, _, _], h => simp at h
  | a :: b :: c :: d :: rest, h =>
    refine .inr ⟨a, b, c, d, rest, rfl, ?_⟩
    simp only [List.length_cons] at h
    omega

theorem encodeAdvanced_length (l : List Bool) (h : 4 ∣ l.length) : (encodeAdvanced l).length = 2 * l.length := by
  induction l using encodeAdvanced.induct with
  | case1 a b c d rest ih =>
    simp only [List.length_cons] at h
    simp only [encodeAdvanced, List.length_append, codeword_length, List.length_cons, ih (by omega)]
    omega
  | case2 l hne =>
    rcases nibbles_cases l h with rfl | ⟨a, b, c, d, rest, rfl, -⟩
    · rfl
    · exact absurd rfl (hne a b c d rest)

/-- Encoding a first part of whole nibbles does not depend on the rest. -/
theorem encodeAdvanced_append (l l' : List Bool) (h : 4 ∣ l.length) :
    encodeAdvanced (l ++ l') = encodeAdvanced l ++ encodeAdvanced l' := by
  induction l using encodeAdvanced.induct with
  | case1 a b c d rest ih =>
    simp only [List.length_cons] at h
    simp [encodeAdvanced, ih (by omega)]
  | case2 l hne =>
    rcases nibbles_cases l h with rfl | ⟨a, b, c, d, rest, rfl, -⟩
    · rfl
    · exact absurd rfl (hne a b c d rest)

/-- R153: the coded length is that of the encoder's output. -/
theorem ecEncode_length (ec : EcLevel) (r : Nat) (l : List Bool) (h : 4 ∣ l.length) :
    (ecEncode ec r l).length = codedLen ec r l.length := by
  cases ec with
  | none => rfl
  | basic =>
    simp only [ecEncode, codedLen]
    induction l with
    | nil => rfl
    | cons b l ih =>
      clear h
      have key : ∀ l : List Bool, (l.flatMap (List.replicate r)).length = r * l.length := by
        intro l
        induction l with
        | nil => rfl
        | cons c l ihl => simp only [List.flatMap_cons, List.length_append, List.length_replicate, ihl,
            List.length_cons]; ring
      exact key (b :: l)
  | advanced => exact encodeAdvanced_length l h

/-- R150 to R152: encoding whole nibbles does not depend on what follows. -/
theorem ecEncode_append (ec : EcLevel) (r : Nat) (l l' : List Bool) (h : 4 ∣ l.length) :
    ecEncode ec r (l ++ l') = ecEncode ec r l ++ ecEncode ec r l' := by
  cases ec
  · rfl
  · simp [ecEncode]
  · exact encodeAdvanced_append l l' h

/-! Decoding (R154 to R157). -/

@[simp] theorem consBits_decoded (bits rest : List Bool) (c : Nat) :
    consBits bits (.decoded rest c) = .decoded (bits ++ rest) c := rfl

@[simp] theorem consBits_unrecoverable (bits : List Bool) (c : Nat) :
    consBits bits (.unrecoverable c) = .unrecoverable c := rfl

/-- R155: coded bits without an erasure decode to themselves. -/
theorem decodeNone_bits (l : List Bool) : decodeNone (l.map CodedBit.bit) = .decoded l 0 := by
  have h : (l.map CodedBit.bit).mapM CodedBit.known = some l := by
    induction l with
    | nil => rfl
    | cons b l ih => simp [CodedBit.known, ih]
  unfold decodeNone
  rw [h]

/-- R155: an erasure is unrecoverable. -/
theorem decodeNone_erased (cb : List CodedBit) (h : CodedBit.erased ∈ cb) : decodeNone cb = .unrecoverable 0 := by
  have h : cb.mapM CodedBit.known = none := by
    induction cb with
    | nil => simp at h
    | cons c cb ih =>
      cases c with
      | erased => rfl
      | bit b =>
        have h' : CodedBit.erased ∈ cb := by simpa using h
        simp [CodedBit.known, ih h']
  unfold decodeNone
  rw [h]

/-- Where no erasure is in them, coded bits are the bits of some sequence. -/
theorem exists_bits_of_not_erased (cb : List CodedBit) (h : CodedBit.erased ∉ cb) :
    ∃ l : List Bool, cb = l.map CodedBit.bit := by
  induction cb with
  | nil => exact ⟨[], rfl⟩
  | cons c cb ih =>
    simp only [List.mem_cons, not_or] at h
    obtain ⟨l, rfl⟩ := ih h.2
    cases c with
    | erased => exact absurd rfl h.1
    | bit b => exact ⟨b :: l, rfl⟩

/-- R156: one group whose copies vote for a bit, before the rest. -/
theorem decodeBasic_group (r g : Nat) (b : Bool) (grp rest : List CodedBit) (corrected : Nat)
    (hl : grp.length = r) (hv : grp.count (.bit (!b)) < grp.count (.bit b)) :
    decodeBasic r (g + 1) (grp ++ rest) corrected =
      consBits [b] (decodeBasic r g rest (corrected + grp.count (.bit (!b)))) := by
  have ht : (grp ++ rest).take r = grp := by rw [← hl, List.take_left]
  have hd : (grp ++ rest).drop r = rest := by rw [← hl, List.drop_left]
  simp only [decodeBasic, ht, hd]
  cases b
  · simp only [Bool.not_false] at hv ⊢
    rw [if_neg (by omega), Nat.min_eq_left (by omega)]
    have hdec : decide (grp.count (.bit false) < grp.count (.bit true)) = false := by simp; omega
    rw [hdec]
  · simp only [Bool.not_true] at hv ⊢
    rw [if_neg (by omega), Nat.min_eq_right (by omega)]
    have hdec : decide (grp.count (.bit false) < grp.count (.bit true)) = true := by simpa using hv
    rw [hdec]

/-- R156: a group in which the votes are even is unrecoverable. -/
theorem decodeBasic_tie (r g : Nat) (grp rest : List CodedBit) (corrected : Nat) (hl : grp.length = r)
    (hv : grp.count (.bit true) = grp.count (.bit false)) :
    decodeBasic r (g + 1) (grp ++ rest) corrected = .unrecoverable corrected := by
  have ht : (grp ++ rest).take r = grp := by rw [← hl, List.take_left]
  simp only [decodeBasic, ht, hv, if_true]

/-- R157: one block, before the rest. -/
theorem decodeAdvanced_block (n : Nat) (blk : List Bool) (rest : List CodedBit) (corrected : Nat)
    (hl : blk.length = 8) :
    decodeAdvanced (n + 1) (blk.map CodedBit.bit ++ rest) corrected =
      match decodeBlock blk with
      | none => .unrecoverable corrected
      | some (nibble, c) => consBits nibble (decodeAdvanced n rest (corrected + c)) := by
  have hl' : (blk.map CodedBit.bit).length = 8 := by simpa using hl
  have ht : (blk.map CodedBit.bit ++ rest).take 8 = blk.map CodedBit.bit := by rw [← hl', List.take_left]
  have hd : (blk.map CodedBit.bit ++ rest).drop 8 = rest := by rw [← hl', List.drop_left]
  have hz : (blk.map CodedBit.bit).map CodedBit.orZero = blk := by
    rw [List.map_map]
    exact List.map_id' _
  simp only [decodeAdvanced, ht, hd, hz] <;> cases decodeBlock blk <;> rfl

/-- R157: a codeword decodes to its nibble. -/
theorem decodeBlock_codeword : ∀ a b c d : Bool, decodeBlock (codeword a b c d) = some ([a, b, c, d], 0) := by
  decide

/-- R157: a codeword with one bit inverted decodes to its nibble, with one correction. -/
theorem decodeBlock_one_error : ∀ (a b c d : Bool) (p : Fin 8),
    decodeBlock ((codeword a b c d).set p (!(codeword a b c d).getD p false)) = some ([a, b, c, d], 1) := by
  decide

/-! The lengths of what is decoded (R154). -/

theorem decodeNone_length {cb : List CodedBit} {bits : List Bool} {c : Nat} (h : decodeNone cb = .decoded bits c) :
    bits.length = cb.length := by
  by_cases he : CodedBit.erased ∈ cb
  · rw [decodeNone_erased _ he] at h
    cases h
  · obtain ⟨l, rfl⟩ := exists_bits_of_not_erased cb he
    rw [decodeNone_bits] at h
    injection h with h
    simp [h]

theorem decodeBasic_length (r : Nat) {g : Nat} {cb : List CodedBit} {c : Nat} {bits : List Bool} {c' : Nat}
    (h : decodeBasic r g cb c = .decoded bits c') : bits.length = g := by
  induction g generalizing cb c bits c' with
  | zero =>
    injection h with h
    simp [← h]
  | succ g ih =>
    simp only [decodeBasic] at h
    split at h
    · cases h
    · cases hd : decodeBasic r g (cb.drop r)
          (c + min ((cb.take r).count (.bit true)) ((cb.take r).count (.bit false))) with
      | unrecoverable _ =>
        rw [hd] at h
        cases h
      | decoded rest _ =>
        rw [hd] at h
        injection h with h
        simp [← h, ih hd]

theorem decodeBlock_length {blk nibble : List Bool} {c : Nat} (h : decodeBlock blk = some (nibble, c)) :
    nibble.length = 4 := by
  unfold decodeBlock at h
  split at h
  · cases h
  · split at h <;>
    · simp only [Option.some.injEq, Prod.mk.injEq] at h
      rw [← h.1]
      rfl

theorem decodeAdvanced_length {g : Nat} {cb : List CodedBit} {c : Nat} {bits : List Bool} {c' : Nat}
    (h : decodeAdvanced g cb c = .decoded bits c') : bits.length = 4 * g := by
  induction g generalizing cb c bits c' with
  | zero =>
    injection h with h
    simp [← h]
  | succ g ih =>
    simp only [decodeAdvanced] at h
    cases hb : decodeBlock ((cb.take 8).map CodedBit.orZero) with
    | none =>
      rw [hb] at h
      cases h
    | some p =>
      rw [hb] at h
      simp only at h
      cases hd : decodeAdvanced g (cb.drop 8) (c + p.2) with
      | unrecoverable _ =>
        rw [hd] at h
        cases h
      | decoded rest _ =>
        rw [hd] at h
        injection h with h
        rw [← h, List.length_append, ih hd, decodeBlock_length hb]
        omega

/-- R154: decoding the coded bits of `n` body bits gives `n` bits. -/
theorem ecDecode_length {ec : EcLevel} {r n : Nat} {cb : List CodedBit} {bits : List Bool} {c : Nat} (hn : 4 ∣ n)
    (hl : cb.length = codedLen ec r n) (h : ecDecode ec r n cb = .decoded bits c) : bits.length = n := by
  cases ec with
  | none => exact (decodeNone_length h).trans hl
  | basic => exact decodeBasic_length r h
  | advanced =>
    rw [decodeAdvanced_length h]
    omega

end Sys2Proof.Machine
end

