-- ==== Sys2Proof/Laws/State.lean ====
section
/-! SUPPORT. One lemma per field and update of State: what the update leaves and what it writes. -/

namespace Sys2Proof.Machine

open Sys2Proof

/-! `State.setIrq`. -/

@[simp] theorem State.setIrq_params (s : State) (e : IrqEvent) :
    (s.setIrq e).params = s.params := rfl

@[simp] theorem State.setIrq_settings (s : State) (e : IrqEvent) :
    (s.setIrq e).settings = s.settings := rfl

@[simp] theorem State.setIrq_irqStatus (s : State) (e : IrqEvent) :
    (s.setIrq e).irqStatus = s.irqStatus ||| BitVec.twoPow 6 e.bit := rfl

@[simp] theorem State.setIrq_irqEnable (s : State) (e : IrqEvent) :
    (s.setIrq e).irqEnable = s.irqEnable := rfl

@[simp] theorem State.setIrq_issues (s : State) (e : IrqEvent) :
    (s.setIrq e).issues = s.issues := rfl

@[simp] theorem State.setIrq_cmdErr (s : State) (e : IrqEvent) :
    (s.setIrq e).cmdErr = s.cmdErr := rfl

@[simp] theorem State.setIrq_resOvf (s : State) (e : IrqEvent) :
    (s.setIrq e).resOvf = s.resOvf := rfl

@[simp] theorem State.setIrq_tx (s : State) (e : IrqEvent) :
    (s.setIrq e).tx = s.tx := rfl

@[simp] theorem State.setIrq_txSnap (s : State) (e : IrqEvent) :
    (s.setIrq e).txSnap = s.txSnap := rfl

@[simp] theorem State.setIrq_rx (s : State) (e : IrqEvent) :
    (s.setIrq e).rx = s.rx := rfl

@[simp] theorem State.setIrq_rxSnap (s : State) (e : IrqEvent) :
    (s.setIrq e).rxSnap = s.rxSnap := rfl

@[simp] theorem State.setIrq_fifo (s : State) (e : IrqEvent) :
    (s.setIrq e).fifo = s.fifo := rfl

@[simp] theorem State.setIrq_txRam (s : State) (e : IrqEvent) :
    (s.setIrq e).txRam = s.txRam := rfl

@[simp] theorem State.setIrq_mag (s : State) (e : IrqEvent) :
    (s.setIrq e).mag = s.mag := rfl

@[simp] theorem State.setIrq_rstAsserted (s : State) (e : IrqEvent) :
    (s.setIrq e).rstAsserted = s.rstAsserted := rfl

@[simp] theorem State.setIrq_resets (s : State) (e : IrqEvent) :
    (s.setIrq e).resets = s.resets := rfl

@[simp] theorem State.setIrq_inputs (s : State) (e : IrqEvent) :
    (s.setIrq e).inputs = s.inputs := rfl

@[simp] theorem State.setIrq_port (s : State) (e : IrqEvent) :
    (s.setIrq e).port = s.port := rfl

@[simp] theorem State.setIrq_txStream (s : State) (e : IrqEvent) :
    (s.setIrq e).txStream = s.txStream := rfl

/-! `State.refuse`. -/

@[simp] theorem State.refuse_params (s : State) :
    (s.refuse).params = s.params := rfl

@[simp] theorem State.refuse_settings (s : State) :
    (s.refuse).settings = s.settings := rfl

@[simp] theorem State.refuse_irqStatus (s : State) :
    (s.refuse).irqStatus = s.irqStatus ||| BitVec.twoPow 6 IrqEvent.cmdErr.bit := rfl

@[simp] theorem State.refuse_irqEnable (s : State) :
    (s.refuse).irqEnable = s.irqEnable := rfl

@[simp] theorem State.refuse_issues (s : State) :
    (s.refuse).issues = s.issues := rfl

@[simp] theorem State.refuse_cmdErr (s : State) :
    (s.refuse).cmdErr = true := rfl

@[simp] theorem State.refuse_resOvf (s : State) :
    (s.refuse).resOvf = s.resOvf := rfl

@[simp] theorem State.refuse_tx (s : State) :
    (s.refuse).tx = s.tx := rfl

@[simp] theorem State.refuse_txSnap (s : State) :
    (s.refuse).txSnap = s.txSnap := rfl

@[simp] theorem State.refuse_rx (s : State) :
    (s.refuse).rx = s.rx := rfl

@[simp] theorem State.refuse_rxSnap (s : State) :
    (s.refuse).rxSnap = s.rxSnap := rfl

@[simp] theorem State.refuse_fifo (s : State) :
    (s.refuse).fifo = s.fifo := rfl

@[simp] theorem State.refuse_txRam (s : State) :
    (s.refuse).txRam = s.txRam := rfl

@[simp] theorem State.refuse_mag (s : State) :
    (s.refuse).mag = s.mag := rfl

@[simp] theorem State.refuse_rstAsserted (s : State) :
    (s.refuse).rstAsserted = s.rstAsserted := rfl

@[simp] theorem State.refuse_resets (s : State) :
    (s.refuse).resets = s.resets := rfl

@[simp] theorem State.refuse_inputs (s : State) :
    (s.refuse).inputs = s.inputs := rfl

@[simp] theorem State.refuse_port (s : State) :
    (s.refuse).port = s.port := rfl

@[simp] theorem State.refuse_txStream (s : State) :
    (s.refuse).txStream = s.txStream := rfl

/-! `State.takeInput`. -/

@[simp] theorem State.takeInput_params (s : State) :
    (s.takeInput).params = s.params := rfl

@[simp] theorem State.takeInput_settings (s : State) :
    (s.takeInput).settings = s.settings := rfl

@[simp] theorem State.takeInput_irqStatus (s : State) :
    (s.takeInput).irqStatus = s.irqStatus := rfl

@[simp] theorem State.takeInput_irqEnable (s : State) :
    (s.takeInput).irqEnable = s.irqEnable := rfl

@[simp] theorem State.takeInput_issues (s : State) :
    (s.takeInput).issues = s.issues := rfl

@[simp] theorem State.takeInput_cmdErr (s : State) :
    (s.takeInput).cmdErr = s.cmdErr := rfl

@[simp] theorem State.takeInput_resOvf (s : State) :
    (s.takeInput).resOvf = s.resOvf := rfl

@[simp] theorem State.takeInput_tx (s : State) :
    (s.takeInput).tx = s.tx := rfl

@[simp] theorem State.takeInput_txSnap (s : State) :
    (s.takeInput).txSnap = s.txSnap := rfl

@[simp] theorem State.takeInput_rx (s : State) :
    (s.takeInput).rx = s.rx := rfl

@[simp] theorem State.takeInput_rxSnap (s : State) :
    (s.takeInput).rxSnap = s.rxSnap := rfl

@[simp] theorem State.takeInput_fifo (s : State) :
    (s.takeInput).fifo = s.fifo := rfl

@[simp] theorem State.takeInput_txRam (s : State) :
    (s.takeInput).txRam = s.txRam := rfl

@[simp] theorem State.takeInput_mag (s : State) :
    (s.takeInput).mag = s.mag := rfl

@[simp] theorem State.takeInput_rstAsserted (s : State) :
    (s.takeInput).rstAsserted = s.rstAsserted := rfl

@[simp] theorem State.takeInput_resets (s : State) :
    (s.takeInput).resets = s.resets := rfl

@[simp] theorem State.takeInput_inputs (s : State) :
    (s.takeInput).inputs = s.inputs.tail := rfl

@[simp] theorem State.takeInput_port (s : State) :
    (s.takeInput).port = .none := rfl

@[simp] theorem State.takeInput_txStream (s : State) :
    (s.takeInput).txStream = s.txStream := rfl

/-! `State.scheduleCommand`. -/

@[simp] theorem State.scheduleCommand_params (s : State) (w : Word) :
    (s.scheduleCommand w).params = s.params := rfl

@[simp] theorem State.scheduleCommand_settings (s : State) (w : Word) :
    (s.scheduleCommand w).settings = s.settings := rfl

@[simp] theorem State.scheduleCommand_irqStatus (s : State) (w : Word) :
    (s.scheduleCommand w).irqStatus = s.irqStatus := rfl

@[simp] theorem State.scheduleCommand_irqEnable (s : State) (w : Word) :
    (s.scheduleCommand w).irqEnable = s.irqEnable := rfl

@[simp] theorem State.scheduleCommand_issues (s : State) (w : Word) :
    (s.scheduleCommand w).issues = s.issues := rfl

@[simp] theorem State.scheduleCommand_cmdErr (s : State) (w : Word) :
    (s.scheduleCommand w).cmdErr = s.cmdErr := rfl

@[simp] theorem State.scheduleCommand_resOvf (s : State) (w : Word) :
    (s.scheduleCommand w).resOvf = s.resOvf := rfl

@[simp] theorem State.scheduleCommand_tx (s : State) (w : Word) :
    (s.scheduleCommand w).tx = s.tx := rfl

@[simp] theorem State.scheduleCommand_txSnap (s : State) (w : Word) :
    (s.scheduleCommand w).txSnap = s.txSnap := rfl

@[simp] theorem State.scheduleCommand_rx (s : State) (w : Word) :
    (s.scheduleCommand w).rx = s.rx := rfl

@[simp] theorem State.scheduleCommand_rxSnap (s : State) (w : Word) :
    (s.scheduleCommand w).rxSnap = s.rxSnap := rfl

@[simp] theorem State.scheduleCommand_fifo (s : State) (w : Word) :
    (s.scheduleCommand w).fifo = s.fifo := rfl

@[simp] theorem State.scheduleCommand_txRam (s : State) (w : Word) :
    (s.scheduleCommand w).txRam = s.txRam := rfl

@[simp] theorem State.scheduleCommand_mag (s : State) (w : Word) :
    (s.scheduleCommand w).mag = s.mag := rfl

@[simp] theorem State.scheduleCommand_rstAsserted (s : State) (w : Word) :
    (s.scheduleCommand w).rstAsserted = false := rfl

@[simp] theorem State.scheduleCommand_resets (s : State) (w : Word) :
    (s.scheduleCommand w).resets = s.resets := rfl

@[simp] theorem State.scheduleCommand_inputs (s : State) (w : Word) :
    (s.scheduleCommand w).inputs = .hostWrite cmdOffset 4 w :: s.inputs := rfl

@[simp] theorem State.scheduleCommand_port (s : State) (w : Word) :
    (s.scheduleCommand w).port = s.port := rfl

@[simp] theorem State.scheduleCommand_txStream (s : State) (w : Word) :
    (s.scheduleCommand w).txStream = s.txStream := rfl

/-! `State.txStartFailed`. -/

@[simp] theorem State.txStartFailed_params (s : State) (c : OutcomeCode) :
    (s.txStartFailed c).params = s.params := rfl

@[simp] theorem State.txStartFailed_settings (s : State) (c : OutcomeCode) :
    (s.txStartFailed c).settings = s.settings := rfl

@[simp] theorem State.txStartFailed_irqStatus (s : State) (c : OutcomeCode) :
    (s.txStartFailed c).irqStatus = s.irqStatus ||| BitVec.twoPow 6 IrqEvent.txDone.bit := rfl

@[simp] theorem State.txStartFailed_irqEnable (s : State) (c : OutcomeCode) :
    (s.txStartFailed c).irqEnable = s.irqEnable := rfl

@[simp] theorem State.txStartFailed_issues (s : State) (c : OutcomeCode) :
    (s.txStartFailed c).issues = issuesTx s.params s.settings := rfl

@[simp] theorem State.txStartFailed_cmdErr (s : State) (c : OutcomeCode) :
    (s.txStartFailed c).cmdErr = s.cmdErr := rfl

@[simp] theorem State.txStartFailed_resOvf (s : State) (c : OutcomeCode) :
    (s.txStartFailed c).resOvf = s.resOvf := rfl

@[simp] theorem State.txStartFailed_txSnap (s : State) (c : OutcomeCode) :
    (s.txStartFailed c).txSnap = s.txSnap := rfl

@[simp] theorem State.txStartFailed_rx (s : State) (c : OutcomeCode) :
    (s.txStartFailed c).rx = s.rx := rfl

@[simp] theorem State.txStartFailed_rxSnap (s : State) (c : OutcomeCode) :
    (s.txStartFailed c).rxSnap = s.rxSnap := rfl

@[simp] theorem State.txStartFailed_fifo (s : State) (c : OutcomeCode) :
    (s.txStartFailed c).fifo = s.fifo := rfl

@[simp] theorem State.txStartFailed_txRam (s : State) (c : OutcomeCode) :
    (s.txStartFailed c).txRam = s.txRam := rfl

@[simp] theorem State.txStartFailed_mag (s : State) (c : OutcomeCode) :
    (s.txStartFailed c).mag = s.mag := rfl

@[simp] theorem State.txStartFailed_rstAsserted (s : State) (c : OutcomeCode) :
    (s.txStartFailed c).rstAsserted = s.rstAsserted := rfl

@[simp] theorem State.txStartFailed_resets (s : State) (c : OutcomeCode) :
    (s.txStartFailed c).resets = s.resets := rfl

@[simp] theorem State.txStartFailed_inputs (s : State) (c : OutcomeCode) :
    (s.txStartFailed c).inputs = s.inputs := rfl

@[simp] theorem State.txStartFailed_port (s : State) (c : OutcomeCode) :
    (s.txStartFailed c).port = s.port := rfl

@[simp] theorem State.txStartFailed_txStream (s : State) (c : OutcomeCode) :
    (s.txStartFailed c).txStream = s.txStream := rfl

/-! `State.txStarted`. -/

@[simp] theorem State.txStarted_params (s : State) (ec : EcLevel) :
    (s.txStarted ec).params = s.params := rfl

@[simp] theorem State.txStarted_settings (s : State) (ec : EcLevel) :
    (s.txStarted ec).settings = s.settings := rfl

@[simp] theorem State.txStarted_irqStatus (s : State) (ec : EcLevel) :
    (s.txStarted ec).irqStatus = s.irqStatus := rfl

@[simp] theorem State.txStarted_irqEnable (s : State) (ec : EcLevel) :
    (s.txStarted ec).irqEnable = s.irqEnable := rfl

@[simp] theorem State.txStarted_issues (s : State) (ec : EcLevel) :
    (s.txStarted ec).issues = issuesTx s.params s.settings := rfl

@[simp] theorem State.txStarted_cmdErr (s : State) (ec : EcLevel) :
    (s.txStarted ec).cmdErr = s.cmdErr := rfl

@[simp] theorem State.txStarted_resOvf (s : State) (ec : EcLevel) :
    (s.txStarted ec).resOvf = s.resOvf := rfl

@[simp] theorem State.txStarted_txSnap (s : State) (ec : EcLevel) :
    (s.txStarted ec).txSnap = some (txSnapOf s.settings) := rfl

@[simp] theorem State.txStarted_rx (s : State) (ec : EcLevel) :
    (s.txStarted ec).rx = s.rx := rfl

@[simp] theorem State.txStarted_rxSnap (s : State) (ec : EcLevel) :
    (s.txStarted ec).rxSnap = s.rxSnap := rfl

@[simp] theorem State.txStarted_fifo (s : State) (ec : EcLevel) :
    (s.txStarted ec).fifo = s.fifo := rfl

@[simp] theorem State.txStarted_txRam (s : State) (ec : EcLevel) :
    (s.txStarted ec).txRam = s.txRam := rfl

@[simp] theorem State.txStarted_mag (s : State) (ec : EcLevel) :
    (s.txStarted ec).mag = s.mag := rfl

@[simp] theorem State.txStarted_rstAsserted (s : State) (ec : EcLevel) :
    (s.txStarted ec).rstAsserted = s.rstAsserted := rfl

@[simp] theorem State.txStarted_resets (s : State) (ec : EcLevel) :
    (s.txStarted ec).resets = s.resets := rfl

@[simp] theorem State.txStarted_inputs (s : State) (ec : EcLevel) :
    (s.txStarted ec).inputs = s.inputs := rfl

@[simp] theorem State.txStarted_port (s : State) (ec : EcLevel) :
    (s.txStarted ec).port = s.port := rfl

@[simp] theorem State.txStarted_txStream (s : State) (ec : EcLevel) :
    (s.txStarted ec).txStream = s.txStream := rfl

/-! `State.txCancel`. -/

@[simp] theorem State.txCancel_params (s : State) :
    (s.txCancel).params = s.params := rfl

@[simp] theorem State.txCancel_settings (s : State) :
    (s.txCancel).settings = s.settings := rfl

@[simp] theorem State.txCancel_irqStatus (s : State) :
    (s.txCancel).irqStatus = s.irqStatus ||| BitVec.twoPow 6 IrqEvent.txDone.bit := rfl

@[simp] theorem State.txCancel_irqEnable (s : State) :
    (s.txCancel).irqEnable = s.irqEnable := rfl

@[simp] theorem State.txCancel_issues (s : State) :
    (s.txCancel).issues = s.issues := rfl

@[simp] theorem State.txCancel_cmdErr (s : State) :
    (s.txCancel).cmdErr = s.cmdErr := rfl

@[simp] theorem State.txCancel_resOvf (s : State) :
    (s.txCancel).resOvf = s.resOvf := rfl

@[simp] theorem State.txCancel_txSnap (s : State) :
    (s.txCancel).txSnap = s.txSnap := rfl

@[simp] theorem State.txCancel_rx (s : State) :
    (s.txCancel).rx = s.rx := rfl

@[simp] theorem State.txCancel_rxSnap (s : State) :
    (s.txCancel).rxSnap = s.rxSnap := rfl

@[simp] theorem State.txCancel_fifo (s : State) :
    (s.txCancel).fifo = s.fifo := rfl

@[simp] theorem State.txCancel_txRam (s : State) :
    (s.txCancel).txRam = s.txRam := rfl

@[simp] theorem State.txCancel_mag (s : State) :
    (s.txCancel).mag = s.mag := rfl

@[simp] theorem State.txCancel_rstAsserted (s : State) :
    (s.txCancel).rstAsserted = s.rstAsserted := rfl

@[simp] theorem State.txCancel_resets (s : State) :
    (s.txCancel).resets = s.resets := rfl

@[simp] theorem State.txCancel_inputs (s : State) :
    (s.txCancel).inputs = s.inputs := rfl

@[simp] theorem State.txCancel_port (s : State) :
    (s.txCancel).port = s.port := rfl

@[simp] theorem State.txCancel_txStream (s : State) :
    (s.txCancel).txStream = s.txStream := rfl

/-! `State.rxEnableFailed`. -/

@[simp] theorem State.rxEnableFailed_params (s : State) :
    (s.rxEnableFailed).params = s.params := rfl

@[simp] theorem State.rxEnableFailed_settings (s : State) :
    (s.rxEnableFailed).settings = s.settings := rfl

@[simp] theorem State.rxEnableFailed_irqStatus (s : State) :
    (s.rxEnableFailed).irqStatus = s.irqStatus ||| BitVec.twoPow 6 IrqEvent.rxDone.bit := rfl

@[simp] theorem State.rxEnableFailed_irqEnable (s : State) :
    (s.rxEnableFailed).irqEnable = s.irqEnable := rfl

@[simp] theorem State.rxEnableFailed_issues (s : State) :
    (s.rxEnableFailed).issues = issuesRx s.params s.settings := rfl

@[simp] theorem State.rxEnableFailed_cmdErr (s : State) :
    (s.rxEnableFailed).cmdErr = s.cmdErr := rfl

@[simp] theorem State.rxEnableFailed_resOvf (s : State) :
    (s.rxEnableFailed).resOvf = s.resOvf := rfl

@[simp] theorem State.rxEnableFailed_tx (s : State) :
    (s.rxEnableFailed).tx = s.tx := rfl

@[simp] theorem State.rxEnableFailed_txSnap (s : State) :
    (s.rxEnableFailed).txSnap = s.txSnap := rfl

@[simp] theorem State.rxEnableFailed_rxSnap (s : State) :
    (s.rxEnableFailed).rxSnap = s.rxSnap := rfl

@[simp] theorem State.rxEnableFailed_fifo (s : State) :
    (s.rxEnableFailed).fifo = s.fifo := rfl

@[simp] theorem State.rxEnableFailed_txRam (s : State) :
    (s.rxEnableFailed).txRam = s.txRam := rfl

@[simp] theorem State.rxEnableFailed_mag (s : State) :
    (s.rxEnableFailed).mag = s.mag := rfl

@[simp] theorem State.rxEnableFailed_rstAsserted (s : State) :
    (s.rxEnableFailed).rstAsserted = s.rstAsserted := rfl

@[simp] theorem State.rxEnableFailed_resets (s : State) :
    (s.rxEnableFailed).resets = s.resets := rfl

@[simp] theorem State.rxEnableFailed_inputs (s : State) :
    (s.rxEnableFailed).inputs = s.inputs := rfl

@[simp] theorem State.rxEnableFailed_port (s : State) :
    (s.rxEnableFailed).port = s.port := rfl

@[simp] theorem State.rxEnableFailed_txStream (s : State) :
    (s.rxEnableFailed).txStream = s.txStream := rfl

/-! `State.rxEnabled`. -/

@[simp] theorem State.rxEnabled_params (s : State) (sn : RxSnap) :
    (s.rxEnabled sn).params = s.params := rfl

@[simp] theorem State.rxEnabled_settings (s : State) (sn : RxSnap) :
    (s.rxEnabled sn).settings = s.settings := rfl

@[simp] theorem State.rxEnabled_irqStatus (s : State) (sn : RxSnap) :
    (s.rxEnabled sn).irqStatus = s.irqStatus := rfl

@[simp] theorem State.rxEnabled_irqEnable (s : State) (sn : RxSnap) :
    (s.rxEnabled sn).irqEnable = s.irqEnable := rfl

@[simp] theorem State.rxEnabled_issues (s : State) (sn : RxSnap) :
    (s.rxEnabled sn).issues = issuesRx s.params s.settings := rfl

@[simp] theorem State.rxEnabled_cmdErr (s : State) (sn : RxSnap) :
    (s.rxEnabled sn).cmdErr = s.cmdErr := rfl

@[simp] theorem State.rxEnabled_resOvf (s : State) (sn : RxSnap) :
    (s.rxEnabled sn).resOvf = s.resOvf := rfl

@[simp] theorem State.rxEnabled_tx (s : State) (sn : RxSnap) :
    (s.rxEnabled sn).tx = s.tx := rfl

@[simp] theorem State.rxEnabled_txSnap (s : State) (sn : RxSnap) :
    (s.rxEnabled sn).txSnap = s.txSnap := rfl

@[simp] theorem State.rxEnabled_rx (s : State) (sn : RxSnap) :
    (s.rxEnabled sn).rx = RxEngine.session := rfl

@[simp] theorem State.rxEnabled_rxSnap (s : State) (sn : RxSnap) :
    (s.rxEnabled sn).rxSnap = some sn := rfl

@[simp] theorem State.rxEnabled_fifo (s : State) (sn : RxSnap) :
    (s.rxEnabled sn).fifo = s.fifo := rfl

@[simp] theorem State.rxEnabled_txRam (s : State) (sn : RxSnap) :
    (s.rxEnabled sn).txRam = s.txRam := rfl

@[simp] theorem State.rxEnabled_mag (s : State) (sn : RxSnap) :
    (s.rxEnabled sn).mag = s.mag := rfl

@[simp] theorem State.rxEnabled_rstAsserted (s : State) (sn : RxSnap) :
    (s.rxEnabled sn).rstAsserted = s.rstAsserted := rfl

@[simp] theorem State.rxEnabled_resets (s : State) (sn : RxSnap) :
    (s.rxEnabled sn).resets = s.resets := rfl

@[simp] theorem State.rxEnabled_inputs (s : State) (sn : RxSnap) :
    (s.rxEnabled sn).inputs = s.inputs := rfl

@[simp] theorem State.rxEnabled_port (s : State) (sn : RxSnap) :
    (s.rxEnabled sn).port = s.port := rfl

@[simp] theorem State.rxEnabled_txStream (s : State) (sn : RxSnap) :
    (s.rxEnabled sn).txStream = s.txStream := rfl

/-! `State.closeSession`. -/

@[simp] theorem State.closeSession_params (s : State) :
    (s.closeSession).params = s.params := rfl

@[simp] theorem State.closeSession_settings (s : State) :
    (s.closeSession).settings = s.settings := rfl

@[simp] theorem State.closeSession_irqStatus (s : State) :
    (s.closeSession).irqStatus = s.irqStatus ||| BitVec.twoPow 6 IrqEvent.rxDone.bit := rfl

@[simp] theorem State.closeSession_irqEnable (s : State) :
    (s.closeSession).irqEnable = s.irqEnable := rfl

@[simp] theorem State.closeSession_issues (s : State) :
    (s.closeSession).issues = s.issues := rfl

@[simp] theorem State.closeSession_cmdErr (s : State) :
    (s.closeSession).cmdErr = s.cmdErr := rfl

@[simp] theorem State.closeSession_resOvf (s : State) :
    (s.closeSession).resOvf = s.resOvf := rfl

@[simp] theorem State.closeSession_tx (s : State) :
    (s.closeSession).tx = s.tx := rfl

@[simp] theorem State.closeSession_txSnap (s : State) :
    (s.closeSession).txSnap = s.txSnap := rfl

@[simp] theorem State.closeSession_rxSnap (s : State) :
    (s.closeSession).rxSnap = s.rxSnap := rfl

@[simp] theorem State.closeSession_fifo (s : State) :
    (s.closeSession).fifo = s.fifo := rfl

@[simp] theorem State.closeSession_txRam (s : State) :
    (s.closeSession).txRam = s.txRam := rfl

@[simp] theorem State.closeSession_mag (s : State) :
    (s.closeSession).mag = s.mag := rfl

@[simp] theorem State.closeSession_rstAsserted (s : State) :
    (s.closeSession).rstAsserted = s.rstAsserted := rfl

@[simp] theorem State.closeSession_resets (s : State) :
    (s.closeSession).resets = s.resets := rfl

@[simp] theorem State.closeSession_inputs (s : State) :
    (s.closeSession).inputs = s.inputs := rfl

@[simp] theorem State.closeSession_port (s : State) :
    (s.closeSession).port = s.port := rfl

@[simp] theorem State.closeSession_txStream (s : State) :
    (s.closeSession).txStream = s.txStream := rfl

/-! `State.lock`. -/

@[simp] theorem State.lock_params (s : State) (sn : RxSnap) (t0 : Nat) (c0 : Int) :
    (s.lock sn t0 c0).params = s.params := rfl

@[simp] theorem State.lock_settings (s : State) (sn : RxSnap) (t0 : Nat) (c0 : Int) :
    (s.lock sn t0 c0).settings = s.settings := rfl

@[simp] theorem State.lock_irqStatus (s : State) (sn : RxSnap) (t0 : Nat) (c0 : Int) :
    (s.lock sn t0 c0).irqStatus = s.irqStatus ||| BitVec.twoPow 6 IrqEvent.rxLock.bit := rfl

@[simp] theorem State.lock_irqEnable (s : State) (sn : RxSnap) (t0 : Nat) (c0 : Int) :
    (s.lock sn t0 c0).irqEnable = s.irqEnable := rfl

@[simp] theorem State.lock_issues (s : State) (sn : RxSnap) (t0 : Nat) (c0 : Int) :
    (s.lock sn t0 c0).issues = s.issues := rfl

@[simp] theorem State.lock_cmdErr (s : State) (sn : RxSnap) (t0 : Nat) (c0 : Int) :
    (s.lock sn t0 c0).cmdErr = s.cmdErr := rfl

@[simp] theorem State.lock_resOvf (s : State) (sn : RxSnap) (t0 : Nat) (c0 : Int) :
    (s.lock sn t0 c0).resOvf = s.resOvf := rfl

@[simp] theorem State.lock_tx (s : State) (sn : RxSnap) (t0 : Nat) (c0 : Int) :
    (s.lock sn t0 c0).tx = s.tx := rfl

@[simp] theorem State.lock_txSnap (s : State) (sn : RxSnap) (t0 : Nat) (c0 : Int) :
    (s.lock sn t0 c0).txSnap = s.txSnap := rfl

@[simp] theorem State.lock_rxSnap (s : State) (sn : RxSnap) (t0 : Nat) (c0 : Int) :
    (s.lock sn t0 c0).rxSnap = s.rxSnap := rfl

@[simp] theorem State.lock_fifo (s : State) (sn : RxSnap) (t0 : Nat) (c0 : Int) :
    (s.lock sn t0 c0).fifo = s.fifo := rfl

@[simp] theorem State.lock_txRam (s : State) (sn : RxSnap) (t0 : Nat) (c0 : Int) :
    (s.lock sn t0 c0).txRam = s.txRam := rfl

@[simp] theorem State.lock_mag (s : State) (sn : RxSnap) (t0 : Nat) (c0 : Int) :
    (s.lock sn t0 c0).mag = s.mag := rfl

@[simp] theorem State.lock_rstAsserted (s : State) (sn : RxSnap) (t0 : Nat) (c0 : Int) :
    (s.lock sn t0 c0).rstAsserted = s.rstAsserted := rfl

@[simp] theorem State.lock_resets (s : State) (sn : RxSnap) (t0 : Nat) (c0 : Int) :
    (s.lock sn t0 c0).resets = s.resets := rfl

@[simp] theorem State.lock_inputs (s : State) (sn : RxSnap) (t0 : Nat) (c0 : Int) :
    (s.lock sn t0 c0).inputs = s.inputs := rfl

@[simp] theorem State.lock_port (s : State) (sn : RxSnap) (t0 : Nat) (c0 : Int) :
    (s.lock sn t0 c0).port = s.port := rfl

@[simp] theorem State.lock_txStream (s : State) (sn : RxSnap) (t0 : Nat) (c0 : Int) :
    (s.lock sn t0 c0).txStream = s.txStream := rfl

/-! `State.demodulate`. -/

@[simp] theorem State.demodulate_params (s : State) (sn : RxSnap) (r : Region) (mag : Nat → Word) :
    (s.demodulate sn r mag).params = s.params := rfl

@[simp] theorem State.demodulate_settings (s : State) (sn : RxSnap) (r : Region) (mag : Nat → Word) :
    (s.demodulate sn r mag).settings = s.settings := rfl

@[simp] theorem State.demodulate_irqStatus (s : State) (sn : RxSnap) (r : Region) (mag : Nat → Word) :
    (s.demodulate sn r mag).irqStatus = s.irqStatus := rfl

@[simp] theorem State.demodulate_irqEnable (s : State) (sn : RxSnap) (r : Region) (mag : Nat → Word) :
    (s.demodulate sn r mag).irqEnable = s.irqEnable := rfl

@[simp] theorem State.demodulate_issues (s : State) (sn : RxSnap) (r : Region) (mag : Nat → Word) :
    (s.demodulate sn r mag).issues = s.issues := rfl

@[simp] theorem State.demodulate_cmdErr (s : State) (sn : RxSnap) (r : Region) (mag : Nat → Word) :
    (s.demodulate sn r mag).cmdErr = s.cmdErr := rfl

@[simp] theorem State.demodulate_resOvf (s : State) (sn : RxSnap) (r : Region) (mag : Nat → Word) :
    (s.demodulate sn r mag).resOvf = s.resOvf := rfl

@[simp] theorem State.demodulate_tx (s : State) (sn : RxSnap) (r : Region) (mag : Nat → Word) :
    (s.demodulate sn r mag).tx = s.tx := rfl

@[simp] theorem State.demodulate_txSnap (s : State) (sn : RxSnap) (r : Region) (mag : Nat → Word) :
    (s.demodulate sn r mag).txSnap = s.txSnap := rfl

@[simp] theorem State.demodulate_rxSnap (s : State) (sn : RxSnap) (r : Region) (mag : Nat → Word) :
    (s.demodulate sn r mag).rxSnap = s.rxSnap := rfl

@[simp] theorem State.demodulate_fifo (s : State) (sn : RxSnap) (r : Region) (mag : Nat → Word) :
    (s.demodulate sn r mag).fifo = s.fifo := rfl

@[simp] theorem State.demodulate_txRam (s : State) (sn : RxSnap) (r : Region) (mag : Nat → Word) :
    (s.demodulate sn r mag).txRam = s.txRam := rfl

@[simp] theorem State.demodulate_mag (s : State) (sn : RxSnap) (r : Region) (mag : Nat → Word) :
    (s.demodulate sn r mag).mag = s.mag := rfl

@[simp] theorem State.demodulate_rstAsserted (s : State) (sn : RxSnap) (r : Region) (mag : Nat → Word) :
    (s.demodulate sn r mag).rstAsserted = s.rstAsserted := rfl

@[simp] theorem State.demodulate_resets (s : State) (sn : RxSnap) (r : Region) (mag : Nat → Word) :
    (s.demodulate sn r mag).resets = s.resets := rfl

@[simp] theorem State.demodulate_inputs (s : State) (sn : RxSnap) (r : Region) (mag : Nat → Word) :
    (s.demodulate sn r mag).inputs = s.inputs := rfl

@[simp] theorem State.demodulate_port (s : State) (sn : RxSnap) (r : Region) (mag : Nat → Word) :
    (s.demodulate sn r mag).port = s.port := rfl

@[simp] theorem State.demodulate_txStream (s : State) (sn : RxSnap) (r : Region) (mag : Nat → Word) :
    (s.demodulate sn r mag).txStream = s.txStream := rfl

/-! `State.writeStatus`. -/

@[simp] theorem State.writeStatus_params (s : State) (v : Word) :
    (s.writeStatus v).params = s.params := rfl

@[simp] theorem State.writeStatus_settings (s : State) (v : Word) :
    (s.writeStatus v).settings = s.settings := rfl

@[simp] theorem State.writeStatus_irqStatus (s : State) (v : Word) :
    (s.writeStatus v).irqStatus = s.irqStatus := rfl

@[simp] theorem State.writeStatus_irqEnable (s : State) (v : Word) :
    (s.writeStatus v).irqEnable = s.irqEnable := rfl

@[simp] theorem State.writeStatus_issues (s : State) (v : Word) :
    (s.writeStatus v).issues = s.issues := rfl

@[simp] theorem State.writeStatus_cmdErr (s : State) (v : Word) :
    (s.writeStatus v).cmdErr = (s.cmdErr && !v.getLsbD 16) := rfl

@[simp] theorem State.writeStatus_resOvf (s : State) (v : Word) :
    (s.writeStatus v).resOvf = (s.resOvf && !v.getLsbD 17) := rfl

@[simp] theorem State.writeStatus_tx (s : State) (v : Word) :
    (s.writeStatus v).tx = s.tx := rfl

@[simp] theorem State.writeStatus_txSnap (s : State) (v : Word) :
    (s.writeStatus v).txSnap = s.txSnap := rfl

@[simp] theorem State.writeStatus_rx (s : State) (v : Word) :
    (s.writeStatus v).rx = s.rx := rfl

@[simp] theorem State.writeStatus_rxSnap (s : State) (v : Word) :
    (s.writeStatus v).rxSnap = s.rxSnap := rfl

@[simp] theorem State.writeStatus_fifo (s : State) (v : Word) :
    (s.writeStatus v).fifo = s.fifo := rfl

@[simp] theorem State.writeStatus_txRam (s : State) (v : Word) :
    (s.writeStatus v).txRam = s.txRam := rfl

@[simp] theorem State.writeStatus_mag (s : State) (v : Word) :
    (s.writeStatus v).mag = s.mag := rfl

@[simp] theorem State.writeStatus_rstAsserted (s : State) (v : Word) :
    (s.writeStatus v).rstAsserted = s.rstAsserted := rfl

@[simp] theorem State.writeStatus_resets (s : State) (v : Word) :
    (s.writeStatus v).resets = s.resets := rfl

@[simp] theorem State.writeStatus_inputs (s : State) (v : Word) :
    (s.writeStatus v).inputs = s.inputs := rfl

@[simp] theorem State.writeStatus_port (s : State) (v : Word) :
    (s.writeStatus v).port = s.port := rfl

@[simp] theorem State.writeStatus_txStream (s : State) (v : Word) :
    (s.writeStatus v).txStream = s.txStream := rfl

/-! `State.writeIrqStatus`. -/

@[simp] theorem State.writeIrqStatus_params (s : State) (v : Word) :
    (s.writeIrqStatus v).params = s.params := rfl

@[simp] theorem State.writeIrqStatus_settings (s : State) (v : Word) :
    (s.writeIrqStatus v).settings = s.settings := rfl

@[simp] theorem State.writeIrqStatus_irqStatus (s : State) (v : Word) :
    (s.writeIrqStatus v).irqStatus = s.irqStatus &&& ~~~(v.setWidth 6) := rfl

@[simp] theorem State.writeIrqStatus_irqEnable (s : State) (v : Word) :
    (s.writeIrqStatus v).irqEnable = s.irqEnable := rfl

@[simp] theorem State.writeIrqStatus_issues (s : State) (v : Word) :
    (s.writeIrqStatus v).issues = s.issues := rfl

@[simp] theorem State.writeIrqStatus_cmdErr (s : State) (v : Word) :
    (s.writeIrqStatus v).cmdErr = s.cmdErr := rfl

@[simp] theorem State.writeIrqStatus_resOvf (s : State) (v : Word) :
    (s.writeIrqStatus v).resOvf = s.resOvf := rfl

@[simp] theorem State.writeIrqStatus_tx (s : State) (v : Word) :
    (s.writeIrqStatus v).tx = s.tx := rfl

@[simp] theorem State.writeIrqStatus_txSnap (s : State) (v : Word) :
    (s.writeIrqStatus v).txSnap = s.txSnap := rfl

@[simp] theorem State.writeIrqStatus_rx (s : State) (v : Word) :
    (s.writeIrqStatus v).rx = s.rx := rfl

@[simp] theorem State.writeIrqStatus_rxSnap (s : State) (v : Word) :
    (s.writeIrqStatus v).rxSnap = s.rxSnap := rfl

@[simp] theorem State.writeIrqStatus_fifo (s : State) (v : Word) :
    (s.writeIrqStatus v).fifo = s.fifo := rfl

@[simp] theorem State.writeIrqStatus_txRam (s : State) (v : Word) :
    (s.writeIrqStatus v).txRam = s.txRam := rfl

@[simp] theorem State.writeIrqStatus_mag (s : State) (v : Word) :
    (s.writeIrqStatus v).mag = s.mag := rfl

@[simp] theorem State.writeIrqStatus_rstAsserted (s : State) (v : Word) :
    (s.writeIrqStatus v).rstAsserted = s.rstAsserted := rfl

@[simp] theorem State.writeIrqStatus_resets (s : State) (v : Word) :
    (s.writeIrqStatus v).resets = s.resets := rfl

@[simp] theorem State.writeIrqStatus_inputs (s : State) (v : Word) :
    (s.writeIrqStatus v).inputs = s.inputs := rfl

@[simp] theorem State.writeIrqStatus_port (s : State) (v : Word) :
    (s.writeIrqStatus v).port = s.port := rfl

@[simp] theorem State.writeIrqStatus_txStream (s : State) (v : Word) :
    (s.writeIrqStatus v).txStream = s.txStream := rfl

/-! `State.hardReset`. -/

@[simp] theorem State.hardReset_params (s : State) :
    (s.hardReset).params = s.params := rfl

@[simp] theorem State.hardReset_settings (s : State) :
    (s.hardReset).settings = Settings.reset := rfl

@[simp] theorem State.hardReset_irqStatus (s : State) :
    (s.hardReset).irqStatus = 0 := rfl

@[simp] theorem State.hardReset_irqEnable (s : State) :
    (s.hardReset).irqEnable = 0 := rfl

@[simp] theorem State.hardReset_issues (s : State) :
    (s.hardReset).issues = 0 := rfl

@[simp] theorem State.hardReset_cmdErr (s : State) :
    (s.hardReset).cmdErr = false := rfl

@[simp] theorem State.hardReset_resOvf (s : State) :
    (s.hardReset).resOvf = false := rfl

@[simp] theorem State.hardReset_tx (s : State) :
    (s.hardReset).tx = TxEngine.reset := rfl

@[simp] theorem State.hardReset_txSnap (s : State) :
    (s.hardReset).txSnap = none := rfl

@[simp] theorem State.hardReset_rx (s : State) :
    (s.hardReset).rx = RxEngine.reset := rfl

@[simp] theorem State.hardReset_rxSnap (s : State) :
    (s.hardReset).rxSnap = none := rfl

@[simp] theorem State.hardReset_fifo (s : State) :
    (s.hardReset).fifo = [] := rfl

@[simp] theorem State.hardReset_txRam (s : State) :
    (s.hardReset).txRam = [] := rfl

@[simp] theorem State.hardReset_mag (s : State) :
    (s.hardReset).mag = [] := rfl

@[simp] theorem State.hardReset_rstAsserted (s : State) :
    (s.hardReset).rstAsserted = true := rfl

@[simp] theorem State.hardReset_resets (s : State) :
    (s.hardReset).resets = s.resets + 1 := rfl

@[simp] theorem State.hardReset_inputs (s : State) :
    (s.hardReset).inputs = s.inputs := rfl

@[simp] theorem State.hardReset_port (s : State) :
    (s.hardReset).port = s.port := rfl

@[simp] theorem State.hardReset_txStream (s : State) :
    (s.hardReset).txStream = s.txStream := rfl

/-! `State.storeMag`. -/

@[simp] theorem State.storeMag_params (s : State) (n : Nat) (mag : Nat → Word) :
    (s.storeMag n mag).params = s.params := by
  unfold State.storeMag; split <;> rfl

@[simp] theorem State.storeMag_settings (s : State) (n : Nat) (mag : Nat → Word) :
    (s.storeMag n mag).settings = s.settings := by
  unfold State.storeMag; split <;> rfl

@[simp] theorem State.storeMag_irqStatus (s : State) (n : Nat) (mag : Nat → Word) :
    (s.storeMag n mag).irqStatus = s.irqStatus := by
  unfold State.storeMag; split <;> rfl

@[simp] theorem State.storeMag_irqEnable (s : State) (n : Nat) (mag : Nat → Word) :
    (s.storeMag n mag).irqEnable = s.irqEnable := by
  unfold State.storeMag; split <;> rfl

@[simp] theorem State.storeMag_issues (s : State) (n : Nat) (mag : Nat → Word) :
    (s.storeMag n mag).issues = s.issues := by
  unfold State.storeMag; split <;> rfl

@[simp] theorem State.storeMag_cmdErr (s : State) (n : Nat) (mag : Nat → Word) :
    (s.storeMag n mag).cmdErr = s.cmdErr := by
  unfold State.storeMag; split <;> rfl

@[simp] theorem State.storeMag_resOvf (s : State) (n : Nat) (mag : Nat → Word) :
    (s.storeMag n mag).resOvf = s.resOvf := by
  unfold State.storeMag; split <;> rfl

@[simp] theorem State.storeMag_tx (s : State) (n : Nat) (mag : Nat → Word) :
    (s.storeMag n mag).tx = s.tx := by
  unfold State.storeMag; split <;> rfl

@[simp] theorem State.storeMag_txSnap (s : State) (n : Nat) (mag : Nat → Word) :
    (s.storeMag n mag).txSnap = s.txSnap := by
  unfold State.storeMag; split <;> rfl

@[simp] theorem State.storeMag_rx (s : State) (n : Nat) (mag : Nat → Word) :
    (s.storeMag n mag).rx = s.rx := by
  unfold State.storeMag; split <;> rfl

@[simp] theorem State.storeMag_rxSnap (s : State) (n : Nat) (mag : Nat → Word) :
    (s.storeMag n mag).rxSnap = s.rxSnap := by
  unfold State.storeMag; split <;> rfl

@[simp] theorem State.storeMag_fifo (s : State) (n : Nat) (mag : Nat → Word) :
    (s.storeMag n mag).fifo = s.fifo := by
  unfold State.storeMag; split <;> rfl

@[simp] theorem State.storeMag_txRam (s : State) (n : Nat) (mag : Nat → Word) :
    (s.storeMag n mag).txRam = s.txRam := by
  unfold State.storeMag; split <;> rfl

@[simp] theorem State.storeMag_rstAsserted (s : State) (n : Nat) (mag : Nat → Word) :
    (s.storeMag n mag).rstAsserted = s.rstAsserted := by
  unfold State.storeMag; split <;> rfl

@[simp] theorem State.storeMag_resets (s : State) (n : Nat) (mag : Nat → Word) :
    (s.storeMag n mag).resets = s.resets := by
  unfold State.storeMag; split <;> rfl

@[simp] theorem State.storeMag_inputs (s : State) (n : Nat) (mag : Nat → Word) :
    (s.storeMag n mag).inputs = s.inputs := by
  unfold State.storeMag; split <;> rfl

@[simp] theorem State.storeMag_port (s : State) (n : Nat) (mag : Nat → Word) :
    (s.storeMag n mag).port = s.port := by
  unfold State.storeMag; split <;> rfl

@[simp] theorem State.storeMag_txStream (s : State) (n : Nat) (mag : Nat → Word) :
    (s.storeMag n mag).txStream = s.txStream := by
  unfold State.storeMag; split <;> rfl

/-! `State.setTxByte`. -/

@[simp] theorem State.setTxByte_params (s : State) (k : Nat) (v : Byte) :
    (s.setTxByte k v).params = s.params := by
  unfold State.setTxByte; split <;> rfl

@[simp] theorem State.setTxByte_settings (s : State) (k : Nat) (v : Byte) :
    (s.setTxByte k v).settings = s.settings := by
  unfold State.setTxByte; split <;> rfl

@[simp] theorem State.setTxByte_irqStatus (s : State) (k : Nat) (v : Byte) :
    (s.setTxByte k v).irqStatus = s.irqStatus := by
  unfold State.setTxByte; split <;> rfl

@[simp] theorem State.setTxByte_irqEnable (s : State) (k : Nat) (v : Byte) :
    (s.setTxByte k v).irqEnable = s.irqEnable := by
  unfold State.setTxByte; split <;> rfl

@[simp] theorem State.setTxByte_issues (s : State) (k : Nat) (v : Byte) :
    (s.setTxByte k v).issues = s.issues := by
  unfold State.setTxByte; split <;> rfl

@[simp] theorem State.setTxByte_cmdErr (s : State) (k : Nat) (v : Byte) :
    (s.setTxByte k v).cmdErr = s.cmdErr := by
  unfold State.setTxByte; split <;> rfl

@[simp] theorem State.setTxByte_resOvf (s : State) (k : Nat) (v : Byte) :
    (s.setTxByte k v).resOvf = s.resOvf := by
  unfold State.setTxByte; split <;> rfl

@[simp] theorem State.setTxByte_tx (s : State) (k : Nat) (v : Byte) :
    (s.setTxByte k v).tx = s.tx := by
  unfold State.setTxByte; split <;> rfl

@[simp] theorem State.setTxByte_txSnap (s : State) (k : Nat) (v : Byte) :
    (s.setTxByte k v).txSnap = s.txSnap := by
  unfold State.setTxByte; split <;> rfl

@[simp] theorem State.setTxByte_rx (s : State) (k : Nat) (v : Byte) :
    (s.setTxByte k v).rx = s.rx := by
  unfold State.setTxByte; split <;> rfl

@[simp] theorem State.setTxByte_rxSnap (s : State) (k : Nat) (v : Byte) :
    (s.setTxByte k v).rxSnap = s.rxSnap := by
  unfold State.setTxByte; split <;> rfl

@[simp] theorem State.setTxByte_fifo (s : State) (k : Nat) (v : Byte) :
    (s.setTxByte k v).fifo = s.fifo := by
  unfold State.setTxByte; split <;> rfl

@[simp] theorem State.setTxByte_mag (s : State) (k : Nat) (v : Byte) :
    (s.setTxByte k v).mag = s.mag := by
  unfold State.setTxByte; split <;> rfl

@[simp] theorem State.setTxByte_rstAsserted (s : State) (k : Nat) (v : Byte) :
    (s.setTxByte k v).rstAsserted = s.rstAsserted := by
  unfold State.setTxByte; split <;> rfl

@[simp] theorem State.setTxByte_resets (s : State) (k : Nat) (v : Byte) :
    (s.setTxByte k v).resets = s.resets := by
  unfold State.setTxByte; split <;> rfl

@[simp] theorem State.setTxByte_inputs (s : State) (k : Nat) (v : Byte) :
    (s.setTxByte k v).inputs = s.inputs := by
  unfold State.setTxByte; split <;> rfl

@[simp] theorem State.setTxByte_port (s : State) (k : Nat) (v : Byte) :
    (s.setTxByte k v).port = s.port := by
  unfold State.setTxByte; split <;> rfl

@[simp] theorem State.setTxByte_txStream (s : State) (k : Nat) (v : Byte) :
    (s.setTxByte k v).txStream = s.txStream := by
  unfold State.setTxByte; split <;> rfl

/-! `State.pushResult`. -/

@[simp] theorem State.pushResult_params (s : State) (res : ResultEntry) :
    (s.pushResult res).params = s.params := by
  unfold State.pushResult; split <;> rfl

@[simp] theorem State.pushResult_settings (s : State) (res : ResultEntry) :
    (s.pushResult res).settings = s.settings := by
  unfold State.pushResult; split <;> rfl

@[simp] theorem State.pushResult_irqEnable (s : State) (res : ResultEntry) :
    (s.pushResult res).irqEnable = s.irqEnable := by
  unfold State.pushResult; split <;> rfl

@[simp] theorem State.pushResult_issues (s : State) (res : ResultEntry) :
    (s.pushResult res).issues = s.issues := by
  unfold State.pushResult; split <;> rfl

@[simp] theorem State.pushResult_cmdErr (s : State) (res : ResultEntry) :
    (s.pushResult res).cmdErr = s.cmdErr := by
  unfold State.pushResult; split <;> rfl

@[simp] theorem State.pushResult_tx (s : State) (res : ResultEntry) :
    (s.pushResult res).tx = s.tx := by
  unfold State.pushResult; split <;> rfl

@[simp] theorem State.pushResult_txSnap (s : State) (res : ResultEntry) :
    (s.pushResult res).txSnap = s.txSnap := by
  unfold State.pushResult; split <;> rfl

@[simp] theorem State.pushResult_rx (s : State) (res : ResultEntry) :
    (s.pushResult res).rx = s.rx := by
  unfold State.pushResult; split <;> rfl

@[simp] theorem State.pushResult_rxSnap (s : State) (res : ResultEntry) :
    (s.pushResult res).rxSnap = s.rxSnap := by
  unfold State.pushResult; split <;> rfl

@[simp] theorem State.pushResult_txRam (s : State) (res : ResultEntry) :
    (s.pushResult res).txRam = s.txRam := by
  unfold State.pushResult; split <;> rfl

@[simp] theorem State.pushResult_mag (s : State) (res : ResultEntry) :
    (s.pushResult res).mag = s.mag := by
  unfold State.pushResult; split <;> rfl

@[simp] theorem State.pushResult_rstAsserted (s : State) (res : ResultEntry) :
    (s.pushResult res).rstAsserted = s.rstAsserted := by
  unfold State.pushResult; split <;> rfl

@[simp] theorem State.pushResult_resets (s : State) (res : ResultEntry) :
    (s.pushResult res).resets = s.resets := by
  unfold State.pushResult; split <;> rfl

@[simp] theorem State.pushResult_inputs (s : State) (res : ResultEntry) :
    (s.pushResult res).inputs = s.inputs := by
  unfold State.pushResult; split <;> rfl

@[simp] theorem State.pushResult_port (s : State) (res : ResultEntry) :
    (s.pushResult res).port = s.port := by
  unfold State.pushResult; split <;> rfl

@[simp] theorem State.pushResult_txStream (s : State) (res : ResultEntry) :
    (s.pushResult res).txStream = s.txStream := by
  unfold State.pushResult; split <;> rfl

/-! `State.endRegion`. -/

@[simp] theorem State.endRegion_params (s : State) (sn : RxSnap) (r : Region) (code : OutcomeCode) (reason : Reason) (c : Nat)
    (p : Option (List Byte)) :
    (s.endRegion sn r code reason c p).params = s.params := by
  simp [State.endRegion]

@[simp] theorem State.endRegion_settings (s : State) (sn : RxSnap) (r : Region) (code : OutcomeCode) (reason : Reason) (c : Nat)
    (p : Option (List Byte)) :
    (s.endRegion sn r code reason c p).settings = s.settings := by
  simp [State.endRegion]

@[simp] theorem State.endRegion_irqEnable (s : State) (sn : RxSnap) (r : Region) (code : OutcomeCode) (reason : Reason) (c : Nat)
    (p : Option (List Byte)) :
    (s.endRegion sn r code reason c p).irqEnable = s.irqEnable := by
  simp [State.endRegion]

@[simp] theorem State.endRegion_issues (s : State) (sn : RxSnap) (r : Region) (code : OutcomeCode) (reason : Reason) (c : Nat)
    (p : Option (List Byte)) :
    (s.endRegion sn r code reason c p).issues = s.issues := by
  simp [State.endRegion]

@[simp] theorem State.endRegion_cmdErr (s : State) (sn : RxSnap) (r : Region) (code : OutcomeCode) (reason : Reason) (c : Nat)
    (p : Option (List Byte)) :
    (s.endRegion sn r code reason c p).cmdErr = s.cmdErr := by
  simp [State.endRegion]

@[simp] theorem State.endRegion_tx (s : State) (sn : RxSnap) (r : Region) (code : OutcomeCode) (reason : Reason) (c : Nat)
    (p : Option (List Byte)) :
    (s.endRegion sn r code reason c p).tx = s.tx := by
  simp [State.endRegion]

@[simp] theorem State.endRegion_txSnap (s : State) (sn : RxSnap) (r : Region) (code : OutcomeCode) (reason : Reason) (c : Nat)
    (p : Option (List Byte)) :
    (s.endRegion sn r code reason c p).txSnap = s.txSnap := by
  simp [State.endRegion]

@[simp] theorem State.endRegion_rxSnap (s : State) (sn : RxSnap) (r : Region) (code : OutcomeCode) (reason : Reason) (c : Nat)
    (p : Option (List Byte)) :
    (s.endRegion sn r code reason c p).rxSnap = s.rxSnap := by
  simp [State.endRegion]

@[simp] theorem State.endRegion_txRam (s : State) (sn : RxSnap) (r : Region) (code : OutcomeCode) (reason : Reason) (c : Nat)
    (p : Option (List Byte)) :
    (s.endRegion sn r code reason c p).txRam = s.txRam := by
  simp [State.endRegion]

@[simp] theorem State.endRegion_mag (s : State) (sn : RxSnap) (r : Region) (code : OutcomeCode) (reason : Reason) (c : Nat)
    (p : Option (List Byte)) :
    (s.endRegion sn r code reason c p).mag = s.mag := by
  simp [State.endRegion]

@[simp] theorem State.endRegion_rstAsserted (s : State) (sn : RxSnap) (r : Region) (code : OutcomeCode) (reason : Reason) (c : Nat)
    (p : Option (List Byte)) :
    (s.endRegion sn r code reason c p).rstAsserted = s.rstAsserted := by
  simp [State.endRegion]

@[simp] theorem State.endRegion_resets (s : State) (sn : RxSnap) (r : Region) (code : OutcomeCode) (reason : Reason) (c : Nat)
    (p : Option (List Byte)) :
    (s.endRegion sn r code reason c p).resets = s.resets := by
  simp [State.endRegion]

@[simp] theorem State.endRegion_inputs (s : State) (sn : RxSnap) (r : Region) (code : OutcomeCode) (reason : Reason) (c : Nat)
    (p : Option (List Byte)) :
    (s.endRegion sn r code reason c p).inputs = s.inputs := by
  simp [State.endRegion]

@[simp] theorem State.endRegion_port (s : State) (sn : RxSnap) (r : Region) (code : OutcomeCode) (reason : Reason) (c : Nat)
    (p : Option (List Byte)) :
    (s.endRegion sn r code reason c p).port = s.port := by
  simp [State.endRegion]

@[simp] theorem State.endRegion_txStream (s : State) (sn : RxSnap) (r : Region) (code : OutcomeCode) (reason : Reason) (c : Nat)
    (p : Option (List Byte)) :
    (s.endRegion sn r code reason c p).txStream = s.txStream := by
  simp [State.endRegion]

end Sys2Proof.Machine
end

