-- ==== Sys2Proof/Laws/Memory.lean ====
section
/-! SUPPORT. The memory laws: read after write, and the canonical form, which every memory operation keeps. -/

namespace Sys2Proof.Machine

open Sys2Proof

@[simp] theorem Memory.wf_nil {w : Nat} : Memory.wf ([] : Memory w) = true := rfl

@[simp] theorem Memory.wf_single {w : Nat} (c : Nat × BitVec w) : Memory.wf [c] = true := rfl

/-- The canonical form is that the addresses rise strictly. -/
theorem Memory.wf_iff_pairwise {w : Nat} (m : Memory w) :
    Memory.wf m = true ↔ List.Pairwise (fun x y => x.1 < y.1) m := by
  induction m with
  | nil => simp
  | cons c rest ih =>
    cases rest with
    | nil => simp
    | cons d rest =>
      obtain ⟨a, u⟩ := c
      obtain ⟨b, v⟩ := d
      simp only [Memory.wf, Bool.and_eq_true, decide_eq_true_eq, ih, List.pairwise_cons, List.mem_cons,
        forall_eq_or_imp]
      constructor
      · rintro ⟨hab, hb, hrest⟩
        exact ⟨⟨hab, fun y hy => lt_trans hab (hb y hy)⟩, hb, hrest⟩
      · rintro ⟨⟨hab, -⟩, hb, hrest⟩
        exact ⟨hab, hb, hrest⟩

/-- Reading the address just written gives the value written. -/
@[simp] theorem Memory.read_write_same {w : Nat} (m : Memory w) (a : Nat) (v : BitVec w) :
    Memory.read (Memory.write m a v) a = some v := by
  induction m with
  | nil => simp [Memory.read, Memory.write]
  | cons c rest ih =>
    obtain ⟨b, u⟩ := c
    simp only [Memory.read] at ih ⊢
    unfold Memory.write
    split
    · simp [List.lookup]
    · split
      · simp [List.lookup]
      · rename_i h
        have : (a == b) = false := by simpa using h
        simp [List.lookup, this, ih]

/-- A write leaves every other address alone. -/
theorem Memory.read_write_other {w : Nat} (m : Memory w) (a k : Nat) (v : BitVec w) (h : k ≠ a) :
    Memory.read (Memory.write m a v) k = Memory.read m k := by
  have hk : (k == a) = false := by simpa using h
  induction m with
  | nil => simp [Memory.read, Memory.write, List.lookup, hk]
  | cons c rest ih =>
    obtain ⟨b, u⟩ := c
    simp only [Memory.read] at ih ⊢
    unfold Memory.write
    split
    · simp [List.lookup, hk]
    · split
      · rename_i hab
        subst hab
        simp [List.lookup, hk]
      · simp [List.lookup, ih]

/-- What a write lists: the written cell, and cells listed before. -/
theorem Memory.mem_write {w : Nat} (m : Memory w) (a : Nat) (v : BitVec w) (c : Nat × BitVec w)
    (h : c ∈ Memory.write m a v) : c = (a, v) ∨ c ∈ m := by
  induction m with
  | nil => simpa [Memory.write] using h
  | cons d rest ih =>
    obtain ⟨b, u⟩ := d
    unfold Memory.write at h
    split at h
    · simpa using h
    · split at h
      · simp only [List.mem_cons] at h ⊢
        tauto
      · simp only [List.mem_cons] at h ⊢
        rcases h with h | h
        · exact .inr (.inl h)
        · rcases ih h with h | h <;> tauto

/-- A write keeps the canonical form. -/
theorem Memory.write_wf {w : Nat} (m : Memory w) (a : Nat) (v : BitVec w) (h : Memory.wf m = true) :
    Memory.wf (Memory.write m a v) = true := by
  rw [Memory.wf_iff_pairwise] at h ⊢
  induction m with
  | nil => simp [Memory.write]
  | cons d rest ih =>
    obtain ⟨b, u⟩ := d
    rw [List.pairwise_cons] at h
    obtain ⟨hb, hrest⟩ := h
    unfold Memory.write
    split
    · rename_i hab
      refine List.pairwise_cons.2 ⟨fun y hy => ?_, List.pairwise_cons.2 ⟨hb, hrest⟩⟩
      rcases List.mem_cons.1 hy with rfl | hy
      · exact hab
      · exact lt_trans hab (hb y hy)
    · split
      · rename_i hab
        subst hab
        exact List.pairwise_cons.2 ⟨hb, hrest⟩
      · refine List.pairwise_cons.2 ⟨fun y hy => ?_, ih hrest⟩
        rcases Memory.mem_write _ _ _ _ hy with rfl | hy
        · show b < a
          omega
        · exact hb y hy

/-- A write lists its address below a bound that the address and the memory respect. -/
theorem Memory.write_below {w : Nat} (m : Memory w) (a n : Nat) (v : BitVec w) (ha : a < n)
    (h : ∀ c ∈ m, c.1 < n) : ∀ c ∈ Memory.write m a v, c.1 < n := by
  intro c hc
  rcases Memory.mem_write m a v c hc with rfl | hc
  · exact ha
  · exact h c hc

/-- In the canonical form an address below every listed one is not listed. -/
theorem Memory.read_eq_none_of_lt {w : Nat} (m : Memory w) (a : Nat) (h : ∀ c ∈ m, a < c.1) :
    Memory.read m a = none := by
  induction m with
  | nil => rfl
  | cons d rest ih =>
    obtain ⟨b, u⟩ := d
    have hab : a < b := h (b, u) (by simp)
    have hb : (a == b) = false := by simpa using hab.ne
    have hrest : ∀ c ∈ rest, a < c.1 := fun c hc => h c (by simp [hc])
    simpa [Memory.read, List.lookup, hb] using ih hrest

/-- Canonical memories that read the same are the same data. -/
theorem Memory.ext_of_wf {w : Nat} (m m' : Memory w) (h : Memory.wf m = true) (h' : Memory.wf m' = true)
    (hr : ∀ a, Memory.read m a = Memory.read m' a) : m = m' := by
  rw [Memory.wf_iff_pairwise] at h h'
  induction m generalizing m' with
  | nil =>
    cases m' with
    | nil => rfl
    | cons d rest => simpa [Memory.read, List.lookup] using hr d.1
  | cons c rest ih =>
    cases m' with
    | nil => simpa [Memory.read, List.lookup] using hr c.1
    | cons d rest' =>
      obtain ⟨a, u⟩ := c
      obtain ⟨b, v⟩ := d
      rw [List.pairwise_cons] at h h'
      have hab : a = b := by
        rcases lt_trichotomy a b with hlt | heq | hlt
        · have hn : Memory.read ((b, v) :: rest') a = none := by
            apply Memory.read_eq_none_of_lt
            intro c hc
            rcases List.mem_cons.1 hc with rfl | hc
            · exact hlt
            · exact lt_trans hlt (h'.1 c hc)
          rw [← hr a] at hn
          simp [Memory.read, List.lookup] at hn
        · exact heq
        · have hn : Memory.read ((a, u) :: rest) b = none := by
            apply Memory.read_eq_none_of_lt
            intro c hc
            rcases List.mem_cons.1 hc with rfl | hc
            · exact hlt
            · exact lt_trans hlt (h.1 c hc)
          rw [hr b] at hn
          simp [Memory.read, List.lookup] at hn
      subst hab
      have huv : u = v := by simpa [Memory.read, List.lookup] using hr a
      subst huv
      have hrest : ∀ k, Memory.read rest k = Memory.read rest' k := by
        intro k
        by_cases hk : k = a
        · subst hk
          rw [Memory.read_eq_none_of_lt rest k h.1, Memory.read_eq_none_of_lt rest' k h'.1]
        · have hka : (k == a) = false := by simpa using hk
          simpa [Memory.read, List.lookup, hka] using hr k
      rw [ih rest' h.2 h'.2 hrest]

/-! The two memories of the block. -/

theorem State.txByte_setTxByte_same (s : State) (k : Nat) (v : Byte) (hk : k < s.params.maxLen) :
    (s.setTxByte k v).txByte k = v := by
  simp only [State.txByte, State.setTxByte_resets]
  simp [State.setTxByte, hk]

theorem State.txByte_setTxByte_other (s : State) (k j : Nat) (v : Byte) (h : j ≠ k) :
    (s.setTxByte k v).txByte j = s.txByte j := by
  simp only [State.txByte, State.setTxByte_resets]
  unfold State.setTxByte
  split
  · simp only [Memory.read_write_other _ _ _ _ h]
  · rfl

/-- What `setTxByte` leaves in the TX payload RAM: its canonical form and its bound. -/
theorem State.setTxByte_ok (s : State) (k : Nat) (v : Byte)
    (h : Memory.wf s.txRam = true ∧ ∀ c ∈ s.txRam, c.1 < s.params.maxLen) :
    Memory.wf (s.setTxByte k v).txRam = true ∧ ∀ c ∈ (s.setTxByte k v).txRam, c.1 < s.params.maxLen := by
  unfold State.setTxByte
  split
  · rename_i hk
    exact ⟨Memory.write_wf _ _ _ h.1, Memory.write_below _ _ _ _ hk h.2⟩
  · exact h

/-- The stored frame's image lists words 0 to 2048, in order. -/
theorem magImage_wf (n : Nat) (mag : Nat → Word) : Memory.wf (magImage n mag) = true := by
  rw [Memory.wf_iff_pairwise, magImage, List.pairwise_map]
  exact List.pairwise_lt_range

theorem mem_magImage (n : Nat) (mag : Nat → Word) : ∀ c ∈ magImage n mag, c.1 ≤ 2048 := by
  intro c hc
  simp only [magImage, List.mem_map, List.mem_range] at hc
  obtain ⟨k, hk, rfl⟩ := hc
  show k ≤ 2048
  omega

theorem read_map_range {w : Nat} (f : Nat → BitVec w) (n k : Nat) (h : k < n) :
    Memory.read ((List.range n).map (fun k => (k, f k))) k = some (f k) := by
  induction n with
  | zero => omega
  | succ n ih =>
    simp only [Memory.read] at ih ⊢
    rw [List.range_succ, List.map_append, List.lookup_append]
    by_cases hk : k < n
    · simp [ih hk]
    · have hkn : k = n := by omega
      subst hkn
      have : List.lookup k ((List.range k).map (fun k => (k, f k))) = none := by
        rw [List.lookup_eq_none_iff]
        intro p hp
        simp only [List.mem_map, List.mem_range] at hp
        obtain ⟨j, hj, rfl⟩ := hp
        simpa using (show k ≠ j by omega)
      simp [this]

/-- R210: every word of the MAG buffer once a frame is stored. -/
theorem read_magImage (n : Nat) (mag : Nat → Word) (k : Nat) (h : k ≤ 2048) :
    Memory.read (magImage n mag) k = some (if k ≤ n / 2 then mag k else 0) :=
  read_map_range (fun k => if k ≤ n / 2 then mag k else 0) 2049 k (by omega)

end Sys2Proof.Machine
end

