-- ==== Sys2Proof/Laws/Issues.lean ====
section
/-! SUPPORT. The bits of ISSUES, and what a validation that reports no issue guarantees (R123 to R126). -/

namespace Sys2Proof.Machine

open Sys2Proof

theorem getLsbD_bitIf (c : Bool) (k j : Nat) (hj : j < 32) : (bitIf c k).getLsbD j = (c && decide (k = j)) := by
  unfold bitIf
  cases c <;> simp [BitVec.getLsbD_twoPow]
  intro h
  omega

/-- The issue bits are bits 30:0. -/
theorem anyIssue_eq_false_iff (i : Word) : anyIssue i = false ↔ ∀ k < 31, i.getLsbD k = false := by
  unfold anyIssue
  rw [bne_eq_false_iff_eq]
  constructor
  · intro h k hk
    have := congrArg (fun x : BitVec 31 => x.getLsbD k) h
    simpa [BitVec.getLsbD_extractLsb', hk] using this
  · intro h
    apply BitVec.eq_of_getLsbD_eq
    intro k hk
    simpa [BitVec.getLsbD_extractLsb', hk] using h k hk

/-- The bits of `Issues_TX()` (R124). -/
theorem getLsbD_issuesTx (p : Params) (st : Settings) (j : Nat) (hj : j < 32) :
    (issuesTx p st).getLsbD j =
      ((issueBitDuration st && decide (1 = j)) || (issueNyquist st && decide (2 = j)) ||
        (issueEcLevel st && decide (3 = j)) || (issueTones st && decide (4 = j)) ||
        (issueRedundancy st && decide (8 = j)) || (issueFreqSep st && decide (9 = j)) ||
        (issueAmplitude st && decide (0 = j)) || (issueFade st && decide (10 = j)) ||
        (issueTxLength p st && decide (11 = j))) := by
  simp only [issuesTx, issuesCommon, BitVec.getLsbD_or, getLsbD_bitIf _ _ _ hj]

/-- The bits of `Issues_RX()` (R125). -/
theorem getLsbD_issuesRx (p : Params) (st : Settings) (j : Nat) (hj : j < 32) :
    (issuesRx p st).getLsbD j =
      ((issueBitDuration st && decide (1 = j)) || (issueNyquist st && decide (2 = j)) ||
        (issueEcLevel st && decide (3 = j)) || (issueTones st && decide (4 = j)) ||
        (issueRedundancy st && decide (8 = j)) || (issueFreqSep st && decide (9 = j)) ||
        (issueSensitivity st && decide (5 = j)) || (issueWinFunc st && decide (6 = j)) ||
        (issueWinSize st && decide (7 = j)) || (issueWindowFit st && decide (12 = j)) ||
        (issueBinCollision st && decide (13 = j)) || (issueHistDepth p st && decide (14 = j)) ||
        (true && decide (31 = j))) := by
  simp only [issuesRx, issuesCommon, BitVec.getLsbD_or, getLsbD_bitIf _ _ _ hj]

/-- A validation of the encoding settings reports nothing exactly when no condition of R123 and R124 holds. -/
theorem anyIssue_issuesTx (p : Params) (st : Settings) :
    anyIssue (issuesTx p st) = false ↔
      issueBitDuration st = false ∧ issueNyquist st = false ∧ issueEcLevel st = false ∧ issueTones st = false ∧
        issueRedundancy st = false ∧ issueFreqSep st = false ∧ issueAmplitude st = false ∧ issueFade st = false ∧
        issueTxLength p st = false := by
  rw [anyIssue_eq_false_iff]
  constructor
  · intro h
    have g (k : Nat) (hk : k < 31) := (getLsbD_issuesTx p st k (by omega)).symm.trans (h k hk)
    refine ⟨?_, ?_, ?_, ?_, ?_, ?_, ?_, ?_, ?_⟩
    · simpa using g 1 (by omega)
    · simpa using g 2 (by omega)
    · simpa using g 3 (by omega)
    · simpa using g 4 (by omega)
    · simpa using g 8 (by omega)
    · simpa using g 9 (by omega)
    · simpa using g 0 (by omega)
    · simpa using g 10 (by omega)
    · simpa using g 11 (by omega)
  · rintro ⟨h1, h2, h3, h4, h5, h6, h7, h8, h9⟩ k hk
    rw [getLsbD_issuesTx p st k (by omega)]
    simp [h1, h2, h3, h4, h5, h6, h7, h8, h9]

/-- A validation of the decoding settings reports nothing exactly when no condition of R123 and R125 holds. -/
theorem anyIssue_issuesRx (p : Params) (st : Settings) :
    anyIssue (issuesRx p st) = false ↔
      issueBitDuration st = false ∧ issueNyquist st = false ∧ issueEcLevel st = false ∧ issueTones st = false ∧
        issueRedundancy st = false ∧ issueFreqSep st = false ∧ issueSensitivity st = false ∧
        issueWinFunc st = false ∧ issueWinSize st = false ∧ issueWindowFit st = false ∧
        issueBinCollision st = false ∧ issueHistDepth p st = false := by
  rw [anyIssue_eq_false_iff]
  constructor
  · intro h
    have g (k : Nat) (hk : k < 31) := (getLsbD_issuesRx p st k (by omega)).symm.trans (h k hk)
    refine ⟨?_, ?_, ?_, ?_, ?_, ?_, ?_, ?_, ?_, ?_, ?_, ?_⟩
    · simpa using g 1 (by omega)
    · simpa using g 2 (by omega)
    · simpa using g 3 (by omega)
    · simpa using g 4 (by omega)
    · simpa using g 8 (by omega)
    · simpa using g 9 (by omega)
    · simpa using g 5 (by omega)
    · simpa using g 6 (by omega)
    · simpa using g 7 (by omega)
    · simpa using g 12 (by omega)
    · simpa using g 13 (by omega)
    · simpa using g 14 (by omega)
  · rintro ⟨h1, h2, h3, h4, h5, h6, h7, h8, h9, h10, h11, h12⟩ k hk
    rw [getLsbD_issuesRx p st k (by omega)]
    have : ¬31 = k := by omega
    simp [h1, h2, h3, h4, h5, h6, h7, h8, h9, h10, h11, h12, this]

/-- A two-bit field that is not 3 stands for a level. -/
theorem ecLevelOf_isSome (f : BitVec 2) (h : f ≠ 3) : ∃ ec, ecLevelOf f = some ec := by
  have : ∀ f : BitVec 2, f ≠ 3 → (ecLevelOf f).isSome = true := by decide
  exact Option.isSome_iff_exists.1 (this f h)

/-- A two-bit field that is not 3 stands for a margin. -/
theorem marginOf_isSome (f : BitVec 2) (h : f ≠ 3) : ∃ m, marginOf f = some m := by
  have : ∀ f : BitVec 2, f ≠ 3 → (marginOf f).isSome = true := by decide
  exact Option.isSome_iff_exists.1 (this f h)

/-- EC_LEVEL has a meaning where no EC_LEVEL issue is reported. -/
theorem ecLevelOf_of_noIssue (st : Settings) (h : issueEcLevel st = false) : ∃ ec, ecLevelOf st.ecField = some ec :=
  ecLevelOf_isSome _ (by simpa [issueEcLevel] using h)

/-- The RX snapshot exists where validation reports no issue (R201, R202). -/
theorem rxSnap?_of_noIssue (p : Params) (st : Settings) (h : anyIssue (issuesRx p st) = false) :
    ∃ ec margin, ecLevelOf st.ecField = some ec ∧ marginOf st.sensitivity = some margin ∧
      rxSnap? st = some (rxSnapOf st ec margin) := by
  rw [anyIssue_issuesRx] at h
  obtain ⟨ec, hec⟩ := ecLevelOf_of_noIssue st h.2.2.1
  obtain ⟨margin, hm⟩ := marginOf_isSome st.sensitivity (by simpa [issueSensitivity] using h.2.2.2.2.2.2.1)
  exact ⟨ec, margin, hec, hm, by simp [rxSnap?, hec, hm]⟩

end Sys2Proof.Machine
end

