-- ==== Sys2Proof/Laws/Commands.lean ====
section
/-! SUPPORT. What each command can do, once: if it answers a next state, it is one of these. -/

namespace Sys2Proof.Machine

open Sys2Proof

/-- TX_START (R181): refused, invalid, over the budget, or started. -/
theorem execTxStart_cases {s t : State} (h : execTxStart s = .next t) :
    (s.tx.state = .run ∧ t = s.refuse) ∨
    (s.tx.state = .idle ∧ anyIssue (issuesTx s.params s.settings) = true ∧ t = s.txStartFailed .invalidSettings) ∨
    ∃ ec, s.tx.state = .idle ∧ anyIssue (issuesTx s.params s.settings) = false ∧
      ecLevelOf s.settings.ecField = some ec ∧
      ((fitsBudget s.settings (s.txTotal ec) = true ∧ t = s.txStarted ec) ∨
       (fitsBudget s.settings (s.txTotal ec) = false ∧ t = s.txStartFailed .capacityExceeded)) := by
  unfold execTxStart at h
  by_cases hrun : s.tx.state = .run
  · rw [if_pos hrun] at h
    injection h with h
    exact .inl ⟨hrun, h.symm⟩
  · have hidle : s.tx.state = .idle := by
      cases hs : s.tx.state <;> simp_all
    rw [if_neg hrun] at h
    by_cases hi : anyIssue (issuesTx s.params s.settings) = true
    · rw [if_pos hi] at h
      injection h with h
      exact .inr (.inl ⟨hidle, hi, h.symm⟩)
    · rw [if_neg hi] at h
      have hi' : anyIssue (issuesTx s.params s.settings) = false := by simpa using hi
      obtain ⟨ec, hec⟩ := ecLevelOf_of_noIssue s.settings ((anyIssue_issuesTx _ _).1 hi').2.2.1
      simp only [hec] at h
      refine .inr (.inr ⟨ec, hidle, hi', hec, ?_⟩)
      split at h <;> injection h with h
      · rename_i hf
        exact .inl ⟨hf, h.symm⟩
      · rename_i hf
        exact .inr ⟨by simpa using hf, h.symm⟩

/-- TX_ABORT (R184, R105). -/
theorem execTxAbort_cases {s t : State} (h : execTxAbort s = .next t) :
    (s.tx.state = .run ∧ t = { s with tx := { s.tx with abort := true } }) ∨ (s.tx.state = .idle ∧ t = s) := by
  unfold execTxAbort at h
  split at h <;> injection h with h
  · rename_i hr
    exact .inl ⟨hr, h.symm⟩
  · rename_i hr
    refine .inr ⟨?_, h.symm⟩
    cases hs : s.tx.state <;> simp_all

/-- RX_ENABLE (R201): refused, invalid, or a session started. -/
theorem execRxEnable_cases {s t : State} (h : execRxEnable s = .next t) :
    (s.rx.state ≠ .idle ∧ t = s.refuse) ∨
    (s.rx.state = .idle ∧ anyIssue (issuesRx s.params s.settings) = true ∧ t = s.rxEnableFailed) ∨
    ∃ ec margin, s.rx.state = .idle ∧ anyIssue (issuesRx s.params s.settings) = false ∧
      ecLevelOf s.settings.ecField = some ec ∧ marginOf s.settings.sensitivity = some margin ∧
      t = s.rxEnabled (rxSnapOf s.settings ec margin) := by
  unfold execRxEnable at h
  by_cases hidle : s.rx.state ≠ .idle
  · rw [if_pos hidle] at h
    injection h with h
    exact .inl ⟨hidle, h.symm⟩
  · rw [if_neg hidle] at h
    have hidle' : s.rx.state = .idle := by simpa using hidle
    by_cases hi : anyIssue (issuesRx s.params s.settings) = true
    · rw [if_pos hi] at h
      injection h with h
      exact .inr (.inl ⟨hidle', hi, h.symm⟩)
    · rw [if_neg hi] at h
      have hi' : anyIssue (issuesRx s.params s.settings) = false := by simpa using hi
      obtain ⟨ec, margin, hec, hm, hsn⟩ := rxSnap?_of_noIssue _ _ hi'
      simp only [hsn] at h
      injection h with h
      exact .inr (.inr ⟨ec, margin, hidle', hi', hec, hm, h.symm⟩)

/-- The session's region in progress, if any, ends TRUNCATED (R260). -/
theorem truncateRegion_cases (s : State) :
    (∃ sn r, (s.rx.state = .locked ∨ s.rx.state = .demod) ∧ s.rxSnap = some sn ∧ s.rx.reg = some r ∧
      s.truncateRegion = s.endRegion sn r .frameMalformed .truncated 0 none) ∨
    (s.truncateRegion = s ∧
      ¬((s.rx.state = .locked ∨ s.rx.state = .demod) ∧ s.rxSnap.isSome = true ∧ s.rx.reg.isSome = true)) := by
  unfold State.truncateRegion
  split
  · rename_i hst
    cases hsn : s.rxSnap with
    | none => right; simp
    | some sn =>
      cases hr : s.rx.reg with
      | none => right; simp
      | some r => left; exact ⟨sn, r, hst, rfl, rfl, rfl⟩
  · rename_i hst
    exact .inr ⟨rfl, fun h => hst h.1⟩

/-- RX_FINISH (R260). -/
theorem execRxFinish_cases {s t : State} (h : execRxFinish s = .next t) :
    (s.rx.state = .idle ∧ t = s.refuse) ∨ (s.rx.state ≠ .idle ∧ t = s.truncateRegion.closeSession) := by
  unfold execRxFinish at h
  split at h <;> injection h with h
  · rename_i hi
    exact .inl ⟨hi, h.symm⟩
  · rename_i hi
    exact .inr ⟨hi, h.symm⟩

/-- RX_ABORT (R261, R105). -/
theorem execRxAbort_cases {s t : State} (h : execRxAbort s = .next t) :
    (s.rx.state = .idle ∧ t = s) ∨
    (s.rx.state ≠ .idle ∧
      t = State.setIrq { s with rx := { s.rx with reg := none, outcome := .cancelled, state := .idle } } .rxDone) := by
  unfold execRxAbort at h
  split at h <;> injection h with h
  · rename_i hi
    exact .inl ⟨hi, h.symm⟩
  · rename_i hi
    exact .inr ⟨hi, h.symm⟩

/-- RES_POP (R128). -/
theorem execResPop_cases {s t : State} (h : execResPop s = .next t) :
    (s.fifo = [] ∧ t = s.refuse) ∨ ∃ e rest, s.fifo = e :: rest ∧ t = { s with fifo := rest } := by
  unfold execResPop at h
  cases hf : s.fifo with
  | nil =>
    simp only [hf] at h
    injection h with h
    exact .inl ⟨rfl, h.symm⟩
  | cons e rest =>
    simp only [hf] at h
    injection h with h
    exact .inr ⟨e, rest, rfl, h.symm⟩

/-- What any command can do (R102): one case for each effect a command has. -/
theorem exec_cases {i : Instr} {s t : State} (h : exec i s = .next t) :
    (i = .nop ∧ t = s) ∨
    (i = .txStart ∧ execTxStart s = .next t) ∨
    (i = .txAbort ∧ execTxAbort s = .next t) ∨
    (i = .validateTx ∧ t = { s with issues := issuesTx s.params s.settings }) ∨
    (i = .validateRx ∧ t = { s with issues := issuesRx s.params s.settings }) ∨
    (i = .rxEnable ∧ execRxEnable s = .next t) ∨
    (i = .rxFinish ∧ execRxFinish s = .next t) ∨
    (i = .rxAbort ∧ execRxAbort s = .next t) ∨
    (i = .resPop ∧ execResPop s = .next t) ∨
    (i = .softReset ∧ execSoftReset s = .next t) := by
  cases i
  case nop => injection h with h; simp [h]
  case validateTx => injection h with h; simp [h]
  case validateRx => injection h with h; simp [h]
  all_goals simp [exec] at h ⊢; exact h

/-- A region's end (R256, R258): its result is pushed, or dropped where the FIFO is full, and scanning resumes. -/
theorem endRegion_fifo (s : State) (sn : RxSnap) (r : Region) (code : OutcomeCode) (reason : Reason) (c : Nat)
    (p : Option (List Byte)) :
    (s.endRegion sn r code reason c p).fifo =
      if s.fifo.length < s.params.resultDepth then s.fifo ++ [resultOf sn r code reason c p] else s.fifo := by
  unfold State.endRegion State.pushResult
  split <;> rfl

theorem endRegion_rx (s : State) (sn : RxSnap) (r : Region) (code : OutcomeCode) (reason : Reason) (c : Nat)
    (p : Option (List Byte)) :
    (s.endRegion sn r code reason c p).rx =
      { s.rx with scanStart := cdiv (r.s0 + (13 + r.j) * sn.s) sn.h, reg := none, state := .scanning } := by
  unfold State.endRegion State.pushResult
  split <;> rfl

theorem endRegion_irqStatus (s : State) (sn : RxSnap) (r : Region) (code : OutcomeCode) (reason : Reason) (c : Nat)
    (p : Option (List Byte)) :
    (s.endRegion sn r code reason c p).irqStatus =
      s.irqStatus ||| BitVec.twoPow 6
        (if s.fifo.length < s.params.resultDepth then IrqEvent.rxResult else IrqEvent.resOvf).bit := by
  unfold State.endRegion State.pushResult
  split <;> rfl

theorem endRegion_resOvf (s : State) (sn : RxSnap) (r : Region) (code : OutcomeCode) (reason : Reason) (c : Nat)
    (p : Option (List Byte)) :
    (s.endRegion sn r code reason c p).resOvf =
      (s.resOvf || !decide (s.fifo.length < s.params.resultDepth)) := by
  unfold State.endRegion State.pushResult
  split <;> rename_i h <;> simp [State.setIrq, h]

/-- Assembly (R250) goes on with a region, or ends it. -/
theorem assemble_cases (s : State) (sn : RxSnap) (r : Region) :
    (∃ r1, assembleRegion s.params.maxLen sn r = .goOn r1 ∧
      s.assemble sn r = { s with rx := { s.rx with reg := some r1 } }) ∨
    ∃ r1 code reason c p, assembleRegion s.params.maxLen sn r = .finish r1 code reason c p ∧
      s.assemble sn r = s.endRegion sn r1 code reason c p := by
  unfold State.assemble
  cases h : assembleRegion s.params.maxLen sn r with
  | goOn r1 => exact .inl ⟨r1, rfl, rfl⟩
  | finish r1 code reason c p => exact .inr ⟨r1, code, reason, c, p, rfl, rfl⟩

/-- Detection (R224) does nothing where its candidate is not taken, and else locks. -/
theorem detect_cases (s : State) (sn : RxSnap) (t : Nat) :
    (¬(sn.k + 1 ≤ t ∧ s.rx.scanStart ≤ t - sn.k - 1 ∧ candidateTaken sn s.rx.hist (t - sn.k - 1) = true) ∧
      s.detect sn t = s) ∨
    (sn.k + 1 ≤ t ∧ s.rx.scanStart ≤ t - sn.k - 1 ∧ candidateTaken sn s.rx.hist (t - sn.k - 1) = true ∧
      s.detect sn t = s.lock sn (t - sn.k - 1) (correlation sn.off s.rx.hist (t - sn.k - 1))) := by
  unfold State.detect
  split
  · exact .inl ⟨by omega, rfl⟩
  · rename_i hk
    simp only
    split
    · exact .inl ⟨by omega, rfl⟩
    · rename_i hs
      split
      · rename_i hc
        exact .inr ⟨by omega, by omega, hc, rfl⟩
      · rename_i hc
        exact .inl ⟨fun h => hc h.2.2, rfl⟩

/-- The history with a frame's energy added, before the detector sees the frame (R220). -/
def State.recordEnergy (s : State) (sn : RxSnap) (mag : Nat → Word) : State :=
  { s with rx := { s.rx with hist := s.rx.hist ++ [mag (sn.bin.getD sn.m 0)] } }

/-- A frame of a region in progress (R220) is recorded, and then decides the region's symbol where it is due. -/
theorem regionFrame_cases (s : State) (sn : RxSnap) (t : Nat) (mag : Nat → Word) :
    ((∀ r, s.rx.reg = some r → t ≠ r.tf) ∧ s.regionFrame sn t mag = s) ∨
    ∃ r, s.rx.reg = some r ∧ t = r.tf ∧
      s.regionFrame sn t mag = (s.demodulate sn r mag).assemble sn (demodRegion sn r (toneMags sn mag)) := by
  unfold State.regionFrame
  cases hr : s.rx.reg with
  | none => exact .inl ⟨by simp, rfl⟩
  | some r =>
    simp only
    split
    · rename_i ht
      exact .inr ⟨r, rfl, ht, rfl⟩
    · rename_i ht
      refine .inl ⟨fun q hq => ?_, rfl⟩
      injection hq with hq
      exact hq ▸ ht

/-- A frame (R220) is recorded, and then: nothing more, a lock, or a symbol of the region in progress. -/
theorem frame_cases (s : State) (sn : RxSnap) (t : Nat) (mag : Nat → Word) :
    ((s.rx.state = .scanning → ¬(sn.k + 1 ≤ t ∧ s.rx.scanStart ≤ t - sn.k - 1 ∧
        candidateTaken sn (s.recordEnergy sn mag).rx.hist (t - sn.k - 1) = true)) ∧
      (s.rx.state = .locked ∨ s.rx.state = .demod → ∀ r, s.rx.reg = some r → t ≠ r.tf) ∧
      s.frame sn t mag = s.recordEnergy sn mag) ∨
    (s.rx.state = .scanning ∧ sn.k + 1 ≤ t ∧ s.rx.scanStart ≤ t - sn.k - 1 ∧
      candidateTaken sn (s.recordEnergy sn mag).rx.hist (t - sn.k - 1) = true ∧
      s.frame sn t mag = (s.recordEnergy sn mag).lock sn (t - sn.k - 1)
        (correlation sn.off (s.recordEnergy sn mag).rx.hist (t - sn.k - 1))) ∨
    ∃ r, (s.rx.state = .locked ∨ s.rx.state = .demod) ∧ s.rx.reg = some r ∧ t = r.tf ∧
      s.frame sn t mag =
        ((s.recordEnergy sn mag).demodulate sn r mag).assemble sn (demodRegion sn r (toneMags sn mag)) := by
  cases hst : s.rx.state with
  | idle =>
    refine .inl ⟨by simp, by simp, ?_⟩
    unfold State.frame
    rw [hst]
    rfl
  | scanning =>
    have hf : s.frame sn t mag = (s.recordEnergy sn mag).detect sn t := by
      unfold State.frame
      rw [hst]
      rfl
    rw [hf]
    rcases detect_cases (s.recordEnergy sn mag) sn t with ⟨hn, h⟩ | ⟨h1, h2, h3, h4⟩
    · exact .inl ⟨fun _ => hn, by simp, h⟩
    · exact .inr (.inl ⟨rfl, h1, h2, h3, h4⟩)
  | locked =>
    have hf : s.frame sn t mag = (s.recordEnergy sn mag).regionFrame sn t mag := by
      unfold State.frame
      rw [hst]
      rfl
    rw [hf]
    rcases regionFrame_cases (s.recordEnergy sn mag) sn t mag with ⟨hn, h⟩ | ⟨r, hr, ht, h⟩
    · exact .inl ⟨by simp, fun _ => hn, h⟩
    · exact .inr (.inr ⟨r, .inl rfl, hr, ht, h⟩)
  | demod =>
    have hf : s.frame sn t mag = (s.recordEnergy sn mag).regionFrame sn t mag := by
      unfold State.frame
      rw [hst]
      rfl
    rw [hf]
    rcases regionFrame_cases (s.recordEnergy sn mag) sn t mag with ⟨hn, h⟩ | ⟨r, hr, ht, h⟩
    · exact .inl ⟨by simp, fun _ => hn, h⟩
    · exact .inr (.inr ⟨r, .inr rfl, hr, ht, h⟩)

/-- The session with one more sample (R207). -/
def State.takeSample (s : State) (v : Sample) : State :=
  { s with rx := { s.rx with x := s.rx.x ++ [v], n := s.rx.n + 1 } }

/-- The frame due now is stored and counted, before the detector sees it (R207). -/
def State.beginFrame (s : State) (sn : RxSnap) (mag : Nat → Word) : State :=
  { s.storeMag sn.n mag with rx := { s.rx with t := s.rx.t + 1 } }

/-- An analysis frame (R207) is stored, counted and handed to the detector. -/
theorem analyse_eq (s : State) (sn : RxSnap) (mag : Nat → Word) :
    s.analyse sn mag = (s.beginFrame sn mag).frame sn s.rx.t mag := by
  unfold State.analyse State.beginFrame
  simp only [State.storeMag_rx]

@[simp] theorem State.beginFrame_rx (s : State) (sn : RxSnap) (mag : Nat → Word) :
    (s.beginFrame sn mag).rx = { s.rx with t := s.rx.t + 1 } := rfl

/-- Storing a frame changes the MAG buffer and the RX engine alone (R210). -/
theorem State.beginFrame_frame (s : State) (sn : RxSnap) (mag : Nat → Word) :
    ∃ m, s.beginFrame sn mag = { s with rx := { s.rx with t := s.rx.t + 1 }, mag := m } ∧
      m = if s.settings.magFreeze then s.mag else magImage sn.n mag := by
  unfold State.beginFrame State.storeMag
  cases s.settings.magFreeze
  · exact ⟨magImage sn.n mag, by simp only [Bool.false_eq_true, if_false], by simp only [Bool.false_eq_true, if_false]⟩
  · exact ⟨s.mag, by simp only [if_true], by simp only [if_true]⟩

/-- RX-SAMPLE (R207): discarded, taken, or taken and the frame it completes analysed. -/
theorem rxSample_cases (s : State) (v : Sample) :
    (s.rxSample v = s ∧ (s.rx.state = .idle ∨ s.rxSnap = none)) ∨
    ∃ sn, s.rx.state ≠ .idle ∧ s.rxSnap = some sn ∧
      ((frameDue sn (s.rx.n + 1) = false ∧ s.rxSample v = s.takeSample v) ∨
       (frameDue sn (s.rx.n + 1) = true ∧
        s.rxSample v =
          (s.takeSample v).analyse sn (specMag sn.wf (frameSamples sn (s.rx.x ++ [v]) s.rx.t)))) := by
  unfold State.rxSample
  split
  · rename_i h
    exact .inl ⟨rfl, .inl h⟩
  · rename_i h
    cases hsn : s.rxSnap with
    | none => exact .inl ⟨rfl, .inr rfl⟩
    | some sn =>
      refine .inr ⟨sn, h, rfl, ?_⟩
      simp only
      split
      · rename_i hd
        exact .inr ⟨hd, by rw [State.takeSample, hsn]⟩
      · rename_i hd
        exact .inl ⟨by simpa using hd, by rw [State.takeSample, hsn]⟩

/-- TX-EMIT (R183): no sample, or one sample of the current slot and the engine advanced. -/
theorem txEmit_cases (s : State) :
    s.txEmit = s ∨
    ∃ sn sl, s.txSnap = some sn ∧ s.tx.plan[s.tx.slot]? = some sl ∧
      ((s.tx.lastSample sn = false ∧ s.txEmit =
        { s with txStream := s.txStream ++ [sampleOf sn sl s.tx.i s.tx.phase], tx := s.tx.advance sn sl }) ∨
       (s.tx.lastSample sn = true ∧ s.txEmit = State.setIrq
        { s with txStream := s.txStream ++ [sampleOf sn sl s.tx.i s.tx.phase], tx := s.tx.advance sn sl }
          .txDone)) := by
  unfold State.txEmit
  cases hsn : s.txSnap with
  | none => exact .inl rfl
  | some sn =>
    cases hsl : s.tx.plan[s.tx.slot]? with
    | none => exact .inl rfl
    | some sl =>
      refine .inr ⟨sn, sl, rfl, rfl, ?_⟩
      simp only
      split
      · rename_i hl
        exact .inr ⟨hl, rfl⟩
      · rename_i hl
        exact .inl ⟨by simpa using hl, rfl⟩

end Sys2Proof.Machine
end

