-- ==== Sys2Proof/Laws/Step.lean ====
section
/-! SUPPORT. What one step of the machine can do, once, and the induction over it that an invariant cites. -/

namespace Sys2Proof.Machine

open Sys2Proof

/-- A HOST write (R82, R83, R101): a bus error, an illegal word, a command, or a port write. -/
theorem hostWrite_cases {off : Offset} {width : Nat} {v : Word} {s t : State}
    (h : hostWrite off width v s = .next t) :
    (badAccess width off = true ∧ t = { s with port := .writeError }) ∨
    (badAccess width off = false ∧ off = cmdOffset ∧ (∃ e, decode v = .error e) ∧
      t = State.refuse { s with port := .written }) ∨
    (∃ i, badAccess width off = false ∧ off = cmdOffset ∧ decode v = .ok i ∧
      exec i { s with port := .written } = .next t) ∨
    (badAccess width off = false ∧ off ≠ cmdOffset ∧ t = State.portWrite { s with port := .written } off v) := by
  unfold hostWrite at h
  split at h
  · rename_i hb
    injection h with h
    exact .inl ⟨hb, h.symm⟩
  · rename_i hb
    have hb' : badAccess width off = false := by simpa using hb
    split at h
    · rename_i ho
      unfold issueCommand at h
      cases hd : decode v with
      | ok i =>
        simp only [hd] at h
        exact .inr (.inr (.inl ⟨i, hb', ho, rfl, h⟩))
      | error e =>
        simp only [hd] at h
        injection h with h
        exact .inr (.inl ⟨hb', ho, ⟨e, rfl⟩, h.symm⟩)
    · rename_i ho
      injection h with h
      exact .inr (.inr (.inr ⟨hb', ho, h.symm⟩))

/-- A port write reaches a register, or at most four bytes of the TX payload RAM, or nothing (R84, R85). -/
theorem portWrite_cases (s : State) (off : Offset) (v : Word) :
    (∃ r, targetOf off = .reg r ∧ s.portWrite off v = s.writeReg r v) ∨
    (∃ w, targetOf off = .txRam w ∧ s.portWrite off v = s.writeTxWord w v) ∨
    s.portWrite off v = s := by
  unfold State.portWrite
  cases h : targetOf off with
  | reg r => exact .inl ⟨r, rfl, rfl⟩
  | txRam w => exact .inr (.inl ⟨w, rfl, rfl⟩)
  | rxPayload w => exact .inr (.inr rfl)
  | mag k => exact .inr (.inr rfl)
  | unmapped => exact .inr (.inr rfl)

/-- A register write (R85): a W1C register, IRQ_ENABLE, or a setting. -/
theorem writeReg_cases (s : State) (r : Reg) (v : Word) :
    (r = .status ∧ s.writeReg r v = s.writeStatus v) ∨
    (r = .irqStatus ∧ s.writeReg r v = s.writeIrqStatus v) ∨
    (r = .irqEnable ∧ s.writeReg r v = { s with irqEnable := v.setWidth 6 }) ∨
    s.writeReg r v = { s with settings := s.settings.write r v } := by
  cases r <;> simp [State.writeReg]

/-- What one step of the machine can do (R8, R9, R92): take its input and nothing more; release `rst_n`; cancel a
transmission; answer a read or a bus error; refuse an illegal word; run a command; write the port; emit a sample; take
one; or reset. -/
theorem step_cases {s t : State} (h : step s = .next t) :
    (t = s.takeInput) ∨
    (s.rstAsserted = true ∧ t = { s.takeInput with rstAsserted := false}) ∨
    (s.rstAsserted = false ∧ (
      (s.cancelEnabled = true ∧ (s.inputs.head? = none ∨ s.inputs.head? = some .txTurn) ∧ t = s.takeInput.txCancel) ∨
      (∃ p, t = { s.takeInput with port := p }) ∨
      (∃ w, s.inputs.head? = some (.hostWrite 0x008 4 w) ∧ (∃ e, decode w = .error e) ∧ t = State.refuse { s.takeInput with port := .written}) ∨
      (∃ w i, s.inputs.head? = some (.hostWrite 0x008 4 w) ∧ decode w = .ok i ∧ exec i { s.takeInput with port := .written} = .next t) ∨
      (∃ off v, s.inputs.head? = some (.hostWrite off 4 v) ∧ off.toNat % 4 = 0 ∧ off ≠ 0x008 ∧ t = State.portWrite { s.takeInput with port := .written} off v) ∨
      (s.inputs.head? = some .sinkReady ∧ s.emitEnabled = true ∧ t = s.takeInput.txEmit) ∨
      (∃ v, s.inputs.head? = some (.sourceOffers v) ∧ t = s.takeInput.rxSample v) ∨
      (s.inputs.head? = some .resetAssert ∧ t = s.takeInput.hardReset))) := by
  unfold step at h
  cases hin : s.inputs with
  | nil =>
    simp only [hin] at h
    injection h with h; subst h
    unfold idleStep
    split
    · left; rfl
    · rename_i hr
      unfold cancelTurn
      split
      · rename_i hc
        right; right
        exact ⟨by simpa using hr, .inl ⟨hc, .inl rfl, rfl⟩⟩
      · left; rfl
  | cons i rest =>
    simp only [hin] at h
    unfold inputStep at h
    split at h
    · rename_i hr
      injection h with h; subst h
      cases i <;> first | exact .inl rfl | exact .inr (.inl ⟨hr, rfl⟩)
    · rename_i hr
      have hr' : s.rstAsserted = false := by simpa using hr
      unfold agentStep at h
      cases i with
      | hostWrite off width v =>
        right; right
        refine ⟨hr', ?_⟩
        rcases hostWrite_cases h with ⟨-, rfl⟩ | ⟨hb, ho, he, rfl⟩ | ⟨i, hb, ho, hd, he⟩ | ⟨hb, ho, rfl⟩
        · exact .inr (.inl ⟨_, rfl⟩)
        all_goals
          have hw : width = 4 ∧ off.toNat % 4 = 0 := by simpa [badAccess] using hb
          obtain ⟨rfl, ha⟩ := hw
        · subst ho; exact .inr (.inr (.inl ⟨v, rfl, he, rfl⟩))
        · subst ho; exact .inr (.inr (.inr (.inl ⟨v, i, rfl, hd, he⟩)))
        · exact .inr (.inr (.inr (.inr (.inl ⟨off, v, rfl, ha, ho, rfl⟩))))
      | hostRead off width =>
        injection h with h; subst h
        right; right
        refine ⟨hr', .inr (.inl ?_)⟩
        unfold hostRead
        split <;> exact ⟨_, rfl⟩
      | sinkReady =>
        injection h with h; subst h
        unfold sinkTurn
        split
        · rename_i he
          exact .inr (.inr ⟨hr', .inr (.inr (.inr (.inr (.inr (.inl ⟨rfl, he, rfl⟩)))))⟩)
        · exact .inl rfl
      | txTurn =>
        injection h with h; subst h
        unfold cancelTurn
        split
        · rename_i hc
          exact .inr (.inr ⟨hr', .inl ⟨hc, .inr rfl, rfl⟩⟩)
        · exact .inl rfl
      | sourceOffers v =>
        injection h with h; subst h
        exact .inr (.inr ⟨hr', .inr (.inr (.inr (.inr (.inr (.inr (.inl ⟨v, rfl, rfl⟩))))))⟩)
      | resetAssert =>
        injection h with h; subst h
        exact .inr (.inr ⟨hr', .inr (.inr (.inr (.inr (.inr (.inr (.inr ⟨rfl, rfl⟩))))))⟩)
      | resetRelease =>
        injection h with h; subst h
        exact .inl rfl

/-- An invariant that each agent's steps keep is kept by every step of the machine (R8, R92). -/
theorem step_keeps {P : State → Prop}
    (take : ∀ s, P s → P s.takeInput)
    (answer : ∀ s p, P s → P { s with port := p })
    (refuse : ∀ s, P s → P s.refuse)
    (command : ∀ i s t, P s → exec i s = .next t → P t)
    (write : ∀ s off v, P s → P (s.portWrite off v))
    (emit : ∀ s, s.emitEnabled = true → P s → P s.txEmit)
    (cancel : ∀ s, s.cancelEnabled = true → P s → P s.txCancel)
    (sample : ∀ s v, P s → P (s.rxSample v))
    (reset : ∀ s, P s → P s.hardReset)
    (release : ∀ s, P s → P { s with rstAsserted := false })
    {s t : State} (h : step s = .next t) (hs : P s) : P t := by
  have cancelTurn_keeps (s : State) (hs : P s) : P (cancelTurn s) := by
    unfold cancelTurn
    split
    · exact cancel s ‹_› hs
    · exact hs
  have ht := take s hs
  unfold step at h
  cases hin : s.inputs with
  | nil =>
    simp only [hin] at h
    injection h with h
    subst h
    unfold idleStep
    split
    · exact ht
    · exact cancelTurn_keeps _ ht
  | cons i rest =>
    simp only [hin] at h
    unfold inputStep at h
    split at h
    · injection h with h
      subst h
      cases i <;> first
        | exact ht
        | exact release _ ht
    · unfold agentStep at h
      cases i with
      | hostWrite off width v =>
        rcases hostWrite_cases h with ⟨-, rfl⟩ | ⟨-, -, -, rfl⟩ | ⟨i, -, -, -, he⟩ | ⟨-, -, rfl⟩
        · exact answer _ _ ht
        · exact refuse _ (answer _ _ ht)
        · exact command i _ t (answer _ _ ht) he
        · exact write _ off v (answer _ _ ht)
      | hostRead off width =>
        injection h with h
        subst h
        unfold hostRead
        split <;> exact answer _ _ ht
      | sinkReady =>
        injection h with h
        subst h
        unfold sinkTurn
        split
        · exact emit _ ‹_› ht
        · exact ht
      | txTurn =>
        injection h with h
        subst h
        exact cancelTurn_keeps _ ht
      | sourceOffers v =>
        injection h with h
        subst h
        exact sample _ v ht
      | resetAssert =>
        injection h with h
        subst h
        exact reset _ ht
      | resetRelease =>
        injection h with h
        subst h
        exact ht

/-- A property of a state that every register write and every byte write of the TX payload RAM keeps is kept by every
port write (R85). -/
theorem portWrite_keeps {P : State → Prop}
    (status : ∀ s v, P s → P (s.writeStatus v))
    (irqStatus : ∀ s v, P s → P (s.writeIrqStatus v))
    (irqEnable : ∀ s v, P s → P { s with irqEnable := v })
    (setting : ∀ s r v, P s → P { s with settings := s.settings.write r v })
    (ramByte : ∀ s k v, P s → P (s.setTxByte k v))
    (s : State) (off : Offset) (v : Word) (hs : P s) : P (s.portWrite off v) := by
  rcases portWrite_cases s off v with ⟨r, -, h⟩ | ⟨w, -, h⟩ | h <;> rw [h]
  · rcases writeReg_cases s r v with ⟨-, h⟩ | ⟨-, h⟩ | ⟨-, h⟩ | h <;> rw [h]
    · exact status s v hs
    · exact irqStatus s v hs
    · exact irqEnable s _ hs
    · exact setting s r v hs
  · unfold State.writeTxWord
    split
    · exact hs
    · exact ramByte _ _ _ (ramByte _ _ _ (ramByte _ _ _ (ramByte _ _ _ hs)))
  · exact hs

/-- A property that every event, issue, engine and FIFO update keeps is kept by every command: for fields a command
never touches (R104, R120 to R129, R181, R184, R201, R260, R261). -/
theorem exec_keeps {P : State → Prop}
    (refuse : ∀ s, P s → P s.refuse)
    (issues : ∀ s v, P s → P { s with issues := v })
    (txFailed : ∀ s c, s.tx.state = .idle → (c = .invalidSettings ∨ c = .capacityExceeded) → P s →
      P (s.txStartFailed c))
    (txStarted : ∀ s ec, s.tx.state = .idle → anyIssue (issuesTx s.params s.settings) = false →
      ecLevelOf s.settings.ecField = some ec → P s → P (s.txStarted ec))
    (txAbort : ∀ s, s.tx.state = .run → P s → P { s with tx := { s.tx with abort := true } })
    (rxFailed : ∀ s, s.rx.state = .idle → P s → P s.rxEnableFailed)
    (rxEnabled : ∀ s ec margin, anyIssue (issuesRx s.params s.settings) = false →
      ecLevelOf s.settings.ecField = some ec → P s → P (s.rxEnabled (rxSnapOf s.settings ec margin)))
    (rxFinish : ∀ s, s.rx.state ≠ .idle → P s → P s.truncateRegion.closeSession)
    (rxAbort : ∀ s, s.rx.state ≠ .idle → P s →
      P (State.setIrq { s with rx := { s.rx with reg := none, outcome := .cancelled, state := .idle } } .rxDone))
    (pop : ∀ s e rest, s.fifo = e :: rest → P s → P { s with fifo := rest })
    (softReset : ∀ s t, execSoftReset s = .next t → P s → P t)
    (i : Instr) (s t : State) (hs : P s) (h : exec i s = .next t) : P t := by
  rcases exec_cases h with ⟨-, rfl⟩ | ⟨-, h⟩ | ⟨-, h⟩ | ⟨-, rfl⟩ | ⟨-, rfl⟩ | ⟨-, h⟩ | ⟨-, h⟩ | ⟨-, h⟩ | ⟨-, h⟩ |
    ⟨-, h⟩
  · exact hs
  · rcases execTxStart_cases h with ⟨-, rfl⟩ | ⟨hd, -, rfl⟩ | ⟨ec, hd, hi, hec, ⟨-, rfl⟩ | ⟨-, rfl⟩⟩
    · exact refuse s hs
    · exact txFailed s _ hd (.inl rfl) hs
    · exact txStarted s ec hd hi hec hs
    · exact txFailed s _ hd (.inr rfl) hs
  · rcases execTxAbort_cases h with ⟨hr, rfl⟩ | ⟨-, rfl⟩
    · exact txAbort s hr hs
    · exact hs
  · exact issues s _ hs
  · exact issues s _ hs
  · rcases execRxEnable_cases h with ⟨-, rfl⟩ | ⟨hi, -, rfl⟩ | ⟨ec, margin, -, hi, hec, -, rfl⟩
    · exact refuse s hs
    · exact rxFailed s hi hs
    · exact rxEnabled s ec margin hi hec hs
  · rcases execRxFinish_cases h with ⟨-, rfl⟩ | ⟨hn, rfl⟩
    · exact refuse s hs
    · exact rxFinish s hn hs
  · rcases execRxAbort_cases h with ⟨-, rfl⟩ | ⟨hn, rfl⟩
    · exact hs
    · exact rxAbort s hn hs
  · rcases execResPop_cases h with ⟨-, rfl⟩ | ⟨e, rest, hf, rfl⟩
    · exact refuse s hs
    · exact pop s e rest hf hs
  · exact softReset s t h hs

end Sys2Proof.Machine
end

