-- ==== Sys2Proof/Laws/Frames.lean ====
section
/-! SUPPORT. Which fields the engines' steps and the port's writes leave alone, one lemma per field and operation. -/

namespace Sys2Proof.Machine

open Sys2Proof

/-! `State.assemble` writes the RX engine, the FIFO, RES_OVF and IRQ_STATUS (R250, R256). -/

@[simp] theorem State.assemble_params (s : State) (sn : RxSnap) (r : Region) :
    (s.assemble sn r).params = s.params := by
  rcases assemble_cases s sn r with ⟨_, -, h⟩ | ⟨_, _, _, _, _, -, h⟩ <;> rw [h]
  exact State.endRegion_params ..

@[simp] theorem State.assemble_settings (s : State) (sn : RxSnap) (r : Region) :
    (s.assemble sn r).settings = s.settings := by
  rcases assemble_cases s sn r with ⟨_, -, h⟩ | ⟨_, _, _, _, _, -, h⟩ <;> rw [h]
  exact State.endRegion_settings ..

@[simp] theorem State.assemble_irqEnable (s : State) (sn : RxSnap) (r : Region) :
    (s.assemble sn r).irqEnable = s.irqEnable := by
  rcases assemble_cases s sn r with ⟨_, -, h⟩ | ⟨_, _, _, _, _, -, h⟩ <;> rw [h]
  exact State.endRegion_irqEnable ..

@[simp] theorem State.assemble_issues (s : State) (sn : RxSnap) (r : Region) :
    (s.assemble sn r).issues = s.issues := by
  rcases assemble_cases s sn r with ⟨_, -, h⟩ | ⟨_, _, _, _, _, -, h⟩ <;> rw [h]
  exact State.endRegion_issues ..

@[simp] theorem State.assemble_cmdErr (s : State) (sn : RxSnap) (r : Region) :
    (s.assemble sn r).cmdErr = s.cmdErr := by
  rcases assemble_cases s sn r with ⟨_, -, h⟩ | ⟨_, _, _, _, _, -, h⟩ <;> rw [h]
  exact State.endRegion_cmdErr ..

@[simp] theorem State.assemble_tx (s : State) (sn : RxSnap) (r : Region) :
    (s.assemble sn r).tx = s.tx := by
  rcases assemble_cases s sn r with ⟨_, -, h⟩ | ⟨_, _, _, _, _, -, h⟩ <;> rw [h]
  exact State.endRegion_tx ..

@[simp] theorem State.assemble_txSnap (s : State) (sn : RxSnap) (r : Region) :
    (s.assemble sn r).txSnap = s.txSnap := by
  rcases assemble_cases s sn r with ⟨_, -, h⟩ | ⟨_, _, _, _, _, -, h⟩ <;> rw [h]
  exact State.endRegion_txSnap ..

@[simp] theorem State.assemble_rxSnap (s : State) (sn : RxSnap) (r : Region) :
    (s.assemble sn r).rxSnap = s.rxSnap := by
  rcases assemble_cases s sn r with ⟨_, -, h⟩ | ⟨_, _, _, _, _, -, h⟩ <;> rw [h]
  exact State.endRegion_rxSnap ..

@[simp] theorem State.assemble_txRam (s : State) (sn : RxSnap) (r : Region) :
    (s.assemble sn r).txRam = s.txRam := by
  rcases assemble_cases s sn r with ⟨_, -, h⟩ | ⟨_, _, _, _, _, -, h⟩ <;> rw [h]
  exact State.endRegion_txRam ..

@[simp] theorem State.assemble_mag (s : State) (sn : RxSnap) (r : Region) :
    (s.assemble sn r).mag = s.mag := by
  rcases assemble_cases s sn r with ⟨_, -, h⟩ | ⟨_, _, _, _, _, -, h⟩ <;> rw [h]
  exact State.endRegion_mag ..

@[simp] theorem State.assemble_rstAsserted (s : State) (sn : RxSnap) (r : Region) :
    (s.assemble sn r).rstAsserted = s.rstAsserted := by
  rcases assemble_cases s sn r with ⟨_, -, h⟩ | ⟨_, _, _, _, _, -, h⟩ <;> rw [h]
  exact State.endRegion_rstAsserted ..

@[simp] theorem State.assemble_resets (s : State) (sn : RxSnap) (r : Region) :
    (s.assemble sn r).resets = s.resets := by
  rcases assemble_cases s sn r with ⟨_, -, h⟩ | ⟨_, _, _, _, _, -, h⟩ <;> rw [h]
  exact State.endRegion_resets ..

@[simp] theorem State.assemble_inputs (s : State) (sn : RxSnap) (r : Region) :
    (s.assemble sn r).inputs = s.inputs := by
  rcases assemble_cases s sn r with ⟨_, -, h⟩ | ⟨_, _, _, _, _, -, h⟩ <;> rw [h]
  exact State.endRegion_inputs ..

@[simp] theorem State.assemble_port (s : State) (sn : RxSnap) (r : Region) :
    (s.assemble sn r).port = s.port := by
  rcases assemble_cases s sn r with ⟨_, -, h⟩ | ⟨_, _, _, _, _, -, h⟩ <;> rw [h]
  exact State.endRegion_port ..

@[simp] theorem State.assemble_txStream (s : State) (sn : RxSnap) (r : Region) :
    (s.assemble sn r).txStream = s.txStream := by
  rcases assemble_cases s sn r with ⟨_, -, h⟩ | ⟨_, _, _, _, _, -, h⟩ <;> rw [h]
  exact State.endRegion_txStream ..

/-! `State.frame` writes the RX engine, the FIFO, RES_OVF and IRQ_STATUS (R220). -/

@[simp] theorem State.frame_params (s : State) (sn : RxSnap) (t : Nat) (mag : Nat → Word) :
    (s.frame sn t mag).params = s.params := by
  rcases frame_cases s sn t mag with ⟨-, -, h⟩ | ⟨-, -, -, -, h⟩ | ⟨_, -, -, -, h⟩ <;> rw [h]
  · rfl
  · rfl
  · exact State.assemble_params ..

@[simp] theorem State.frame_settings (s : State) (sn : RxSnap) (t : Nat) (mag : Nat → Word) :
    (s.frame sn t mag).settings = s.settings := by
  rcases frame_cases s sn t mag with ⟨-, -, h⟩ | ⟨-, -, -, -, h⟩ | ⟨_, -, -, -, h⟩ <;> rw [h]
  · rfl
  · rfl
  · exact State.assemble_settings ..

@[simp] theorem State.frame_irqEnable (s : State) (sn : RxSnap) (t : Nat) (mag : Nat → Word) :
    (s.frame sn t mag).irqEnable = s.irqEnable := by
  rcases frame_cases s sn t mag with ⟨-, -, h⟩ | ⟨-, -, -, -, h⟩ | ⟨_, -, -, -, h⟩ <;> rw [h]
  · rfl
  · rfl
  · exact State.assemble_irqEnable ..

@[simp] theorem State.frame_issues (s : State) (sn : RxSnap) (t : Nat) (mag : Nat → Word) :
    (s.frame sn t mag).issues = s.issues := by
  rcases frame_cases s sn t mag with ⟨-, -, h⟩ | ⟨-, -, -, -, h⟩ | ⟨_, -, -, -, h⟩ <;> rw [h]
  · rfl
  · rfl
  · exact State.assemble_issues ..

@[simp] theorem State.frame_cmdErr (s : State) (sn : RxSnap) (t : Nat) (mag : Nat → Word) :
    (s.frame sn t mag).cmdErr = s.cmdErr := by
  rcases frame_cases s sn t mag with ⟨-, -, h⟩ | ⟨-, -, -, -, h⟩ | ⟨_, -, -, -, h⟩ <;> rw [h]
  · rfl
  · rfl
  · exact State.assemble_cmdErr ..

@[simp] theorem State.frame_tx (s : State) (sn : RxSnap) (t : Nat) (mag : Nat → Word) :
    (s.frame sn t mag).tx = s.tx := by
  rcases frame_cases s sn t mag with ⟨-, -, h⟩ | ⟨-, -, -, -, h⟩ | ⟨_, -, -, -, h⟩ <;> rw [h]
  · rfl
  · rfl
  · exact State.assemble_tx ..

@[simp] theorem State.frame_txSnap (s : State) (sn : RxSnap) (t : Nat) (mag : Nat → Word) :
    (s.frame sn t mag).txSnap = s.txSnap := by
  rcases frame_cases s sn t mag with ⟨-, -, h⟩ | ⟨-, -, -, -, h⟩ | ⟨_, -, -, -, h⟩ <;> rw [h]
  · rfl
  · rfl
  · exact State.assemble_txSnap ..

@[simp] theorem State.frame_rxSnap (s : State) (sn : RxSnap) (t : Nat) (mag : Nat → Word) :
    (s.frame sn t mag).rxSnap = s.rxSnap := by
  rcases frame_cases s sn t mag with ⟨-, -, h⟩ | ⟨-, -, -, -, h⟩ | ⟨_, -, -, -, h⟩ <;> rw [h]
  · rfl
  · rfl
  · exact State.assemble_rxSnap ..

@[simp] theorem State.frame_txRam (s : State) (sn : RxSnap) (t : Nat) (mag : Nat → Word) :
    (s.frame sn t mag).txRam = s.txRam := by
  rcases frame_cases s sn t mag with ⟨-, -, h⟩ | ⟨-, -, -, -, h⟩ | ⟨_, -, -, -, h⟩ <;> rw [h]
  · rfl
  · rfl
  · exact State.assemble_txRam ..

@[simp] theorem State.frame_mag (s : State) (sn : RxSnap) (t : Nat) (mag : Nat → Word) :
    (s.frame sn t mag).mag = s.mag := by
  rcases frame_cases s sn t mag with ⟨-, -, h⟩ | ⟨-, -, -, -, h⟩ | ⟨_, -, -, -, h⟩ <;> rw [h]
  · rfl
  · rfl
  · exact State.assemble_mag ..

@[simp] theorem State.frame_rstAsserted (s : State) (sn : RxSnap) (t : Nat) (mag : Nat → Word) :
    (s.frame sn t mag).rstAsserted = s.rstAsserted := by
  rcases frame_cases s sn t mag with ⟨-, -, h⟩ | ⟨-, -, -, -, h⟩ | ⟨_, -, -, -, h⟩ <;> rw [h]
  · rfl
  · rfl
  · exact State.assemble_rstAsserted ..

@[simp] theorem State.frame_resets (s : State) (sn : RxSnap) (t : Nat) (mag : Nat → Word) :
    (s.frame sn t mag).resets = s.resets := by
  rcases frame_cases s sn t mag with ⟨-, -, h⟩ | ⟨-, -, -, -, h⟩ | ⟨_, -, -, -, h⟩ <;> rw [h]
  · rfl
  · rfl
  · exact State.assemble_resets ..

@[simp] theorem State.frame_inputs (s : State) (sn : RxSnap) (t : Nat) (mag : Nat → Word) :
    (s.frame sn t mag).inputs = s.inputs := by
  rcases frame_cases s sn t mag with ⟨-, -, h⟩ | ⟨-, -, -, -, h⟩ | ⟨_, -, -, -, h⟩ <;> rw [h]
  · rfl
  · rfl
  · exact State.assemble_inputs ..

@[simp] theorem State.frame_port (s : State) (sn : RxSnap) (t : Nat) (mag : Nat → Word) :
    (s.frame sn t mag).port = s.port := by
  rcases frame_cases s sn t mag with ⟨-, -, h⟩ | ⟨-, -, -, -, h⟩ | ⟨_, -, -, -, h⟩ <;> rw [h]
  · rfl
  · rfl
  · exact State.assemble_port ..

@[simp] theorem State.frame_txStream (s : State) (sn : RxSnap) (t : Nat) (mag : Nat → Word) :
    (s.frame sn t mag).txStream = s.txStream := by
  rcases frame_cases s sn t mag with ⟨-, -, h⟩ | ⟨-, -, -, -, h⟩ | ⟨_, -, -, -, h⟩ <;> rw [h]
  · rfl
  · rfl
  · exact State.assemble_txStream ..

/-! `State.truncateRegion` writes the RX engine, the FIFO, RES_OVF and IRQ_STATUS (R260). -/

@[simp] theorem State.truncateRegion_params (s : State) :
    (s.truncateRegion).params = s.params := by
  rcases truncateRegion_cases s with ⟨_, _, -, -, -, h⟩ | ⟨h, -⟩ <;> rw [h]
  exact State.endRegion_params ..

@[simp] theorem State.truncateRegion_settings (s : State) :
    (s.truncateRegion).settings = s.settings := by
  rcases truncateRegion_cases s with ⟨_, _, -, -, -, h⟩ | ⟨h, -⟩ <;> rw [h]
  exact State.endRegion_settings ..

@[simp] theorem State.truncateRegion_irqEnable (s : State) :
    (s.truncateRegion).irqEnable = s.irqEnable := by
  rcases truncateRegion_cases s with ⟨_, _, -, -, -, h⟩ | ⟨h, -⟩ <;> rw [h]
  exact State.endRegion_irqEnable ..

@[simp] theorem State.truncateRegion_issues (s : State) :
    (s.truncateRegion).issues = s.issues := by
  rcases truncateRegion_cases s with ⟨_, _, -, -, -, h⟩ | ⟨h, -⟩ <;> rw [h]
  exact State.endRegion_issues ..

@[simp] theorem State.truncateRegion_cmdErr (s : State) :
    (s.truncateRegion).cmdErr = s.cmdErr := by
  rcases truncateRegion_cases s with ⟨_, _, -, -, -, h⟩ | ⟨h, -⟩ <;> rw [h]
  exact State.endRegion_cmdErr ..

@[simp] theorem State.truncateRegion_tx (s : State) :
    (s.truncateRegion).tx = s.tx := by
  rcases truncateRegion_cases s with ⟨_, _, -, -, -, h⟩ | ⟨h, -⟩ <;> rw [h]
  exact State.endRegion_tx ..

@[simp] theorem State.truncateRegion_txSnap (s : State) :
    (s.truncateRegion).txSnap = s.txSnap := by
  rcases truncateRegion_cases s with ⟨_, _, -, -, -, h⟩ | ⟨h, -⟩ <;> rw [h]
  exact State.endRegion_txSnap ..

@[simp] theorem State.truncateRegion_rxSnap (s : State) :
    (s.truncateRegion).rxSnap = s.rxSnap := by
  rcases truncateRegion_cases s with ⟨_, _, -, -, -, h⟩ | ⟨h, -⟩ <;> rw [h]
  exact State.endRegion_rxSnap ..

@[simp] theorem State.truncateRegion_txRam (s : State) :
    (s.truncateRegion).txRam = s.txRam := by
  rcases truncateRegion_cases s with ⟨_, _, -, -, -, h⟩ | ⟨h, -⟩ <;> rw [h]
  exact State.endRegion_txRam ..

@[simp] theorem State.truncateRegion_mag (s : State) :
    (s.truncateRegion).mag = s.mag := by
  rcases truncateRegion_cases s with ⟨_, _, -, -, -, h⟩ | ⟨h, -⟩ <;> rw [h]
  exact State.endRegion_mag ..

@[simp] theorem State.truncateRegion_rstAsserted (s : State) :
    (s.truncateRegion).rstAsserted = s.rstAsserted := by
  rcases truncateRegion_cases s with ⟨_, _, -, -, -, h⟩ | ⟨h, -⟩ <;> rw [h]
  exact State.endRegion_rstAsserted ..

@[simp] theorem State.truncateRegion_resets (s : State) :
    (s.truncateRegion).resets = s.resets := by
  rcases truncateRegion_cases s with ⟨_, _, -, -, -, h⟩ | ⟨h, -⟩ <;> rw [h]
  exact State.endRegion_resets ..

@[simp] theorem State.truncateRegion_inputs (s : State) :
    (s.truncateRegion).inputs = s.inputs := by
  rcases truncateRegion_cases s with ⟨_, _, -, -, -, h⟩ | ⟨h, -⟩ <;> rw [h]
  exact State.endRegion_inputs ..

@[simp] theorem State.truncateRegion_port (s : State) :
    (s.truncateRegion).port = s.port := by
  rcases truncateRegion_cases s with ⟨_, _, -, -, -, h⟩ | ⟨h, -⟩ <;> rw [h]
  exact State.endRegion_port ..

@[simp] theorem State.truncateRegion_txStream (s : State) :
    (s.truncateRegion).txStream = s.txStream := by
  rcases truncateRegion_cases s with ⟨_, _, -, -, -, h⟩ | ⟨h, -⟩ <;> rw [h]
  exact State.endRegion_txStream ..

/-! `State.beginFrame` writes the RX engine and the MAG buffer (R207, R210). -/

@[simp] theorem State.beginFrame_params (s : State) (sn : RxSnap) (mag : Nat → Word) :
    (s.beginFrame sn mag).params = s.params := by
  exact State.storeMag_params ..

@[simp] theorem State.beginFrame_settings (s : State) (sn : RxSnap) (mag : Nat → Word) :
    (s.beginFrame sn mag).settings = s.settings := by
  exact State.storeMag_settings ..

@[simp] theorem State.beginFrame_irqStatus (s : State) (sn : RxSnap) (mag : Nat → Word) :
    (s.beginFrame sn mag).irqStatus = s.irqStatus := by
  exact State.storeMag_irqStatus ..

@[simp] theorem State.beginFrame_irqEnable (s : State) (sn : RxSnap) (mag : Nat → Word) :
    (s.beginFrame sn mag).irqEnable = s.irqEnable := by
  exact State.storeMag_irqEnable ..

@[simp] theorem State.beginFrame_issues (s : State) (sn : RxSnap) (mag : Nat → Word) :
    (s.beginFrame sn mag).issues = s.issues := by
  exact State.storeMag_issues ..

@[simp] theorem State.beginFrame_cmdErr (s : State) (sn : RxSnap) (mag : Nat → Word) :
    (s.beginFrame sn mag).cmdErr = s.cmdErr := by
  exact State.storeMag_cmdErr ..

@[simp] theorem State.beginFrame_resOvf (s : State) (sn : RxSnap) (mag : Nat → Word) :
    (s.beginFrame sn mag).resOvf = s.resOvf := by
  exact State.storeMag_resOvf ..

@[simp] theorem State.beginFrame_tx (s : State) (sn : RxSnap) (mag : Nat → Word) :
    (s.beginFrame sn mag).tx = s.tx := by
  exact State.storeMag_tx ..

@[simp] theorem State.beginFrame_txSnap (s : State) (sn : RxSnap) (mag : Nat → Word) :
    (s.beginFrame sn mag).txSnap = s.txSnap := by
  exact State.storeMag_txSnap ..

@[simp] theorem State.beginFrame_rxSnap (s : State) (sn : RxSnap) (mag : Nat → Word) :
    (s.beginFrame sn mag).rxSnap = s.rxSnap := by
  exact State.storeMag_rxSnap ..

@[simp] theorem State.beginFrame_fifo (s : State) (sn : RxSnap) (mag : Nat → Word) :
    (s.beginFrame sn mag).fifo = s.fifo := by
  exact State.storeMag_fifo ..

@[simp] theorem State.beginFrame_txRam (s : State) (sn : RxSnap) (mag : Nat → Word) :
    (s.beginFrame sn mag).txRam = s.txRam := by
  exact State.storeMag_txRam ..

@[simp] theorem State.beginFrame_rstAsserted (s : State) (sn : RxSnap) (mag : Nat → Word) :
    (s.beginFrame sn mag).rstAsserted = s.rstAsserted := by
  exact State.storeMag_rstAsserted ..

@[simp] theorem State.beginFrame_resets (s : State) (sn : RxSnap) (mag : Nat → Word) :
    (s.beginFrame sn mag).resets = s.resets := by
  exact State.storeMag_resets ..

@[simp] theorem State.beginFrame_inputs (s : State) (sn : RxSnap) (mag : Nat → Word) :
    (s.beginFrame sn mag).inputs = s.inputs := by
  exact State.storeMag_inputs ..

@[simp] theorem State.beginFrame_port (s : State) (sn : RxSnap) (mag : Nat → Word) :
    (s.beginFrame sn mag).port = s.port := by
  exact State.storeMag_port ..

@[simp] theorem State.beginFrame_txStream (s : State) (sn : RxSnap) (mag : Nat → Word) :
    (s.beginFrame sn mag).txStream = s.txStream := by
  exact State.storeMag_txStream ..

/-! `State.analyse` writes the RX engine, the FIFO, RES_OVF, IRQ_STATUS and the MAG buffer (R207). -/

@[simp] theorem State.analyse_params (s : State) (sn : RxSnap) (mag : Nat → Word) :
    (s.analyse sn mag).params = s.params := by
  rw [analyse_eq, State.frame_params, State.beginFrame_params]

@[simp] theorem State.analyse_settings (s : State) (sn : RxSnap) (mag : Nat → Word) :
    (s.analyse sn mag).settings = s.settings := by
  rw [analyse_eq, State.frame_settings, State.beginFrame_settings]

@[simp] theorem State.analyse_irqEnable (s : State) (sn : RxSnap) (mag : Nat → Word) :
    (s.analyse sn mag).irqEnable = s.irqEnable := by
  rw [analyse_eq, State.frame_irqEnable, State.beginFrame_irqEnable]

@[simp] theorem State.analyse_issues (s : State) (sn : RxSnap) (mag : Nat → Word) :
    (s.analyse sn mag).issues = s.issues := by
  rw [analyse_eq, State.frame_issues, State.beginFrame_issues]

@[simp] theorem State.analyse_cmdErr (s : State) (sn : RxSnap) (mag : Nat → Word) :
    (s.analyse sn mag).cmdErr = s.cmdErr := by
  rw [analyse_eq, State.frame_cmdErr, State.beginFrame_cmdErr]

@[simp] theorem State.analyse_tx (s : State) (sn : RxSnap) (mag : Nat → Word) :
    (s.analyse sn mag).tx = s.tx := by
  rw [analyse_eq, State.frame_tx, State.beginFrame_tx]

@[simp] theorem State.analyse_txSnap (s : State) (sn : RxSnap) (mag : Nat → Word) :
    (s.analyse sn mag).txSnap = s.txSnap := by
  rw [analyse_eq, State.frame_txSnap, State.beginFrame_txSnap]

@[simp] theorem State.analyse_rxSnap (s : State) (sn : RxSnap) (mag : Nat → Word) :
    (s.analyse sn mag).rxSnap = s.rxSnap := by
  rw [analyse_eq, State.frame_rxSnap, State.beginFrame_rxSnap]

@[simp] theorem State.analyse_txRam (s : State) (sn : RxSnap) (mag : Nat → Word) :
    (s.analyse sn mag).txRam = s.txRam := by
  rw [analyse_eq, State.frame_txRam, State.beginFrame_txRam]

@[simp] theorem State.analyse_rstAsserted (s : State) (sn : RxSnap) (mag : Nat → Word) :
    (s.analyse sn mag).rstAsserted = s.rstAsserted := by
  rw [analyse_eq, State.frame_rstAsserted, State.beginFrame_rstAsserted]

@[simp] theorem State.analyse_resets (s : State) (sn : RxSnap) (mag : Nat → Word) :
    (s.analyse sn mag).resets = s.resets := by
  rw [analyse_eq, State.frame_resets, State.beginFrame_resets]

@[simp] theorem State.analyse_inputs (s : State) (sn : RxSnap) (mag : Nat → Word) :
    (s.analyse sn mag).inputs = s.inputs := by
  rw [analyse_eq, State.frame_inputs, State.beginFrame_inputs]

@[simp] theorem State.analyse_port (s : State) (sn : RxSnap) (mag : Nat → Word) :
    (s.analyse sn mag).port = s.port := by
  rw [analyse_eq, State.frame_port, State.beginFrame_port]

@[simp] theorem State.analyse_txStream (s : State) (sn : RxSnap) (mag : Nat → Word) :
    (s.analyse sn mag).txStream = s.txStream := by
  rw [analyse_eq, State.frame_txStream, State.beginFrame_txStream]

/-! `State.rxSample` writes the RX engine, the FIFO, RES_OVF, IRQ_STATUS and the MAG buffer (R207). -/

@[simp] theorem State.rxSample_params (s : State) (v : Sample) :
    (s.rxSample v).params = s.params := by
  rcases rxSample_cases s v with ⟨h, -⟩ | ⟨sn, -, -, ⟨-, h⟩ | ⟨-, h⟩⟩ <;> rw [h]
  · rfl
  · exact State.analyse_params ..

@[simp] theorem State.rxSample_settings (s : State) (v : Sample) :
    (s.rxSample v).settings = s.settings := by
  rcases rxSample_cases s v with ⟨h, -⟩ | ⟨sn, -, -, ⟨-, h⟩ | ⟨-, h⟩⟩ <;> rw [h]
  · rfl
  · exact State.analyse_settings ..

@[simp] theorem State.rxSample_irqEnable (s : State) (v : Sample) :
    (s.rxSample v).irqEnable = s.irqEnable := by
  rcases rxSample_cases s v with ⟨h, -⟩ | ⟨sn, -, -, ⟨-, h⟩ | ⟨-, h⟩⟩ <;> rw [h]
  · rfl
  · exact State.analyse_irqEnable ..

@[simp] theorem State.rxSample_issues (s : State) (v : Sample) :
    (s.rxSample v).issues = s.issues := by
  rcases rxSample_cases s v with ⟨h, -⟩ | ⟨sn, -, -, ⟨-, h⟩ | ⟨-, h⟩⟩ <;> rw [h]
  · rfl
  · exact State.analyse_issues ..

@[simp] theorem State.rxSample_cmdErr (s : State) (v : Sample) :
    (s.rxSample v).cmdErr = s.cmdErr := by
  rcases rxSample_cases s v with ⟨h, -⟩ | ⟨sn, -, -, ⟨-, h⟩ | ⟨-, h⟩⟩ <;> rw [h]
  · rfl
  · exact State.analyse_cmdErr ..

@[simp] theorem State.rxSample_tx (s : State) (v : Sample) :
    (s.rxSample v).tx = s.tx := by
  rcases rxSample_cases s v with ⟨h, -⟩ | ⟨sn, -, -, ⟨-, h⟩ | ⟨-, h⟩⟩ <;> rw [h]
  · rfl
  · exact State.analyse_tx ..

@[simp] theorem State.rxSample_txSnap (s : State) (v : Sample) :
    (s.rxSample v).txSnap = s.txSnap := by
  rcases rxSample_cases s v with ⟨h, -⟩ | ⟨sn, -, -, ⟨-, h⟩ | ⟨-, h⟩⟩ <;> rw [h]
  · rfl
  · exact State.analyse_txSnap ..

@[simp] theorem State.rxSample_rxSnap (s : State) (v : Sample) :
    (s.rxSample v).rxSnap = s.rxSnap := by
  rcases rxSample_cases s v with ⟨h, -⟩ | ⟨sn, -, -, ⟨-, h⟩ | ⟨-, h⟩⟩ <;> rw [h]
  · rfl
  · exact State.analyse_rxSnap ..

@[simp] theorem State.rxSample_txRam (s : State) (v : Sample) :
    (s.rxSample v).txRam = s.txRam := by
  rcases rxSample_cases s v with ⟨h, -⟩ | ⟨sn, -, -, ⟨-, h⟩ | ⟨-, h⟩⟩ <;> rw [h]
  · rfl
  · exact State.analyse_txRam ..

@[simp] theorem State.rxSample_rstAsserted (s : State) (v : Sample) :
    (s.rxSample v).rstAsserted = s.rstAsserted := by
  rcases rxSample_cases s v with ⟨h, -⟩ | ⟨sn, -, -, ⟨-, h⟩ | ⟨-, h⟩⟩ <;> rw [h]
  · rfl
  · exact State.analyse_rstAsserted ..

@[simp] theorem State.rxSample_resets (s : State) (v : Sample) :
    (s.rxSample v).resets = s.resets := by
  rcases rxSample_cases s v with ⟨h, -⟩ | ⟨sn, -, -, ⟨-, h⟩ | ⟨-, h⟩⟩ <;> rw [h]
  · rfl
  · exact State.analyse_resets ..

@[simp] theorem State.rxSample_inputs (s : State) (v : Sample) :
    (s.rxSample v).inputs = s.inputs := by
  rcases rxSample_cases s v with ⟨h, -⟩ | ⟨sn, -, -, ⟨-, h⟩ | ⟨-, h⟩⟩ <;> rw [h]
  · rfl
  · exact State.analyse_inputs ..

@[simp] theorem State.rxSample_port (s : State) (v : Sample) :
    (s.rxSample v).port = s.port := by
  rcases rxSample_cases s v with ⟨h, -⟩ | ⟨sn, -, -, ⟨-, h⟩ | ⟨-, h⟩⟩ <;> rw [h]
  · rfl
  · exact State.analyse_port ..

@[simp] theorem State.rxSample_txStream (s : State) (v : Sample) :
    (s.rxSample v).txStream = s.txStream := by
  rcases rxSample_cases s v with ⟨h, -⟩ | ⟨sn, -, -, ⟨-, h⟩ | ⟨-, h⟩⟩ <;> rw [h]
  · rfl
  · exact State.analyse_txStream ..

/-! `State.txEmit` writes the TX engine, the stream and IRQ_STATUS (R183). -/

@[simp] theorem State.txEmit_params (s : State) :
    (s.txEmit).params = s.params := by
  rcases txEmit_cases s with h | ⟨_, _, -, -, ⟨-, h⟩ | ⟨-, h⟩⟩ <;> (rw [h]; try rfl)

@[simp] theorem State.txEmit_settings (s : State) :
    (s.txEmit).settings = s.settings := by
  rcases txEmit_cases s with h | ⟨_, _, -, -, ⟨-, h⟩ | ⟨-, h⟩⟩ <;> (rw [h]; try rfl)

@[simp] theorem State.txEmit_irqEnable (s : State) :
    (s.txEmit).irqEnable = s.irqEnable := by
  rcases txEmit_cases s with h | ⟨_, _, -, -, ⟨-, h⟩ | ⟨-, h⟩⟩ <;> (rw [h]; try rfl)

@[simp] theorem State.txEmit_issues (s : State) :
    (s.txEmit).issues = s.issues := by
  rcases txEmit_cases s with h | ⟨_, _, -, -, ⟨-, h⟩ | ⟨-, h⟩⟩ <;> (rw [h]; try rfl)

@[simp] theorem State.txEmit_cmdErr (s : State) :
    (s.txEmit).cmdErr = s.cmdErr := by
  rcases txEmit_cases s with h | ⟨_, _, -, -, ⟨-, h⟩ | ⟨-, h⟩⟩ <;> (rw [h]; try rfl)

@[simp] theorem State.txEmit_resOvf (s : State) :
    (s.txEmit).resOvf = s.resOvf := by
  rcases txEmit_cases s with h | ⟨_, _, -, -, ⟨-, h⟩ | ⟨-, h⟩⟩ <;> (rw [h]; try rfl)

@[simp] theorem State.txEmit_txSnap (s : State) :
    (s.txEmit).txSnap = s.txSnap := by
  rcases txEmit_cases s with h | ⟨_, _, -, -, ⟨-, h⟩ | ⟨-, h⟩⟩ <;> (rw [h]; try rfl)

@[simp] theorem State.txEmit_rx (s : State) :
    (s.txEmit).rx = s.rx := by
  rcases txEmit_cases s with h | ⟨_, _, -, -, ⟨-, h⟩ | ⟨-, h⟩⟩ <;> (rw [h]; try rfl)

@[simp] theorem State.txEmit_rxSnap (s : State) :
    (s.txEmit).rxSnap = s.rxSnap := by
  rcases txEmit_cases s with h | ⟨_, _, -, -, ⟨-, h⟩ | ⟨-, h⟩⟩ <;> (rw [h]; try rfl)

@[simp] theorem State.txEmit_fifo (s : State) :
    (s.txEmit).fifo = s.fifo := by
  rcases txEmit_cases s with h | ⟨_, _, -, -, ⟨-, h⟩ | ⟨-, h⟩⟩ <;> (rw [h]; try rfl)

@[simp] theorem State.txEmit_txRam (s : State) :
    (s.txEmit).txRam = s.txRam := by
  rcases txEmit_cases s with h | ⟨_, _, -, -, ⟨-, h⟩ | ⟨-, h⟩⟩ <;> (rw [h]; try rfl)

@[simp] theorem State.txEmit_mag (s : State) :
    (s.txEmit).mag = s.mag := by
  rcases txEmit_cases s with h | ⟨_, _, -, -, ⟨-, h⟩ | ⟨-, h⟩⟩ <;> (rw [h]; try rfl)

@[simp] theorem State.txEmit_rstAsserted (s : State) :
    (s.txEmit).rstAsserted = s.rstAsserted := by
  rcases txEmit_cases s with h | ⟨_, _, -, -, ⟨-, h⟩ | ⟨-, h⟩⟩ <;> (rw [h]; try rfl)

@[simp] theorem State.txEmit_resets (s : State) :
    (s.txEmit).resets = s.resets := by
  rcases txEmit_cases s with h | ⟨_, _, -, -, ⟨-, h⟩ | ⟨-, h⟩⟩ <;> (rw [h]; try rfl)

@[simp] theorem State.txEmit_inputs (s : State) :
    (s.txEmit).inputs = s.inputs := by
  rcases txEmit_cases s with h | ⟨_, _, -, -, ⟨-, h⟩ | ⟨-, h⟩⟩ <;> (rw [h]; try rfl)

@[simp] theorem State.txEmit_port (s : State) :
    (s.txEmit).port = s.port := by
  rcases txEmit_cases s with h | ⟨_, _, -, -, ⟨-, h⟩ | ⟨-, h⟩⟩ <;> (rw [h]; try rfl)

/-! `State.writeTxWord` writes the TX payload RAM (R85). -/

@[simp] theorem State.writeTxWord_params (s : State) (w : Nat) (v : Word) :
    (s.writeTxWord w v).params = s.params := by
  unfold State.writeTxWord
  split <;> simp

@[simp] theorem State.writeTxWord_settings (s : State) (w : Nat) (v : Word) :
    (s.writeTxWord w v).settings = s.settings := by
  unfold State.writeTxWord
  split <;> simp

@[simp] theorem State.writeTxWord_irqStatus (s : State) (w : Nat) (v : Word) :
    (s.writeTxWord w v).irqStatus = s.irqStatus := by
  unfold State.writeTxWord
  split <;> simp

@[simp] theorem State.writeTxWord_irqEnable (s : State) (w : Nat) (v : Word) :
    (s.writeTxWord w v).irqEnable = s.irqEnable := by
  unfold State.writeTxWord
  split <;> simp

@[simp] theorem State.writeTxWord_issues (s : State) (w : Nat) (v : Word) :
    (s.writeTxWord w v).issues = s.issues := by
  unfold State.writeTxWord
  split <;> simp

@[simp] theorem State.writeTxWord_cmdErr (s : State) (w : Nat) (v : Word) :
    (s.writeTxWord w v).cmdErr = s.cmdErr := by
  unfold State.writeTxWord
  split <;> simp

@[simp] theorem State.writeTxWord_resOvf (s : State) (w : Nat) (v : Word) :
    (s.writeTxWord w v).resOvf = s.resOvf := by
  unfold State.writeTxWord
  split <;> simp

@[simp] theorem State.writeTxWord_tx (s : State) (w : Nat) (v : Word) :
    (s.writeTxWord w v).tx = s.tx := by
  unfold State.writeTxWord
  split <;> simp

@[simp] theorem State.writeTxWord_txSnap (s : State) (w : Nat) (v : Word) :
    (s.writeTxWord w v).txSnap = s.txSnap := by
  unfold State.writeTxWord
  split <;> simp

@[simp] theorem State.writeTxWord_rx (s : State) (w : Nat) (v : Word) :
    (s.writeTxWord w v).rx = s.rx := by
  unfold State.writeTxWord
  split <;> simp

@[simp] theorem State.writeTxWord_rxSnap (s : State) (w : Nat) (v : Word) :
    (s.writeTxWord w v).rxSnap = s.rxSnap := by
  unfold State.writeTxWord
  split <;> simp

@[simp] theorem State.writeTxWord_fifo (s : State) (w : Nat) (v : Word) :
    (s.writeTxWord w v).fifo = s.fifo := by
  unfold State.writeTxWord
  split <;> simp

@[simp] theorem State.writeTxWord_mag (s : State) (w : Nat) (v : Word) :
    (s.writeTxWord w v).mag = s.mag := by
  unfold State.writeTxWord
  split <;> simp

@[simp] theorem State.writeTxWord_rstAsserted (s : State) (w : Nat) (v : Word) :
    (s.writeTxWord w v).rstAsserted = s.rstAsserted := by
  unfold State.writeTxWord
  split <;> simp

@[simp] theorem State.writeTxWord_resets (s : State) (w : Nat) (v : Word) :
    (s.writeTxWord w v).resets = s.resets := by
  unfold State.writeTxWord
  split <;> simp

@[simp] theorem State.writeTxWord_inputs (s : State) (w : Nat) (v : Word) :
    (s.writeTxWord w v).inputs = s.inputs := by
  unfold State.writeTxWord
  split <;> simp

@[simp] theorem State.writeTxWord_port (s : State) (w : Nat) (v : Word) :
    (s.writeTxWord w v).port = s.port := by
  unfold State.writeTxWord
  split <;> simp

@[simp] theorem State.writeTxWord_txStream (s : State) (w : Nat) (v : Word) :
    (s.writeTxWord w v).txStream = s.txStream := by
  unfold State.writeTxWord
  split <;> simp

/-! `State.portWrite` writes registers and the TX payload RAM (R85). -/

@[simp] theorem State.portWrite_params (s : State) (off : Offset) (v : Word) :
    (s.portWrite off v).params = s.params := by
  rcases portWrite_cases s off v with ⟨r, -, h⟩ | ⟨w, -, h⟩ | h <;> rw [h]
  · rcases writeReg_cases s r v with ⟨-, h⟩ | ⟨-, h⟩ | ⟨-, h⟩ | h <;> (rw [h]; try rfl)
  · exact State.writeTxWord_params ..

@[simp] theorem State.portWrite_issues (s : State) (off : Offset) (v : Word) :
    (s.portWrite off v).issues = s.issues := by
  rcases portWrite_cases s off v with ⟨r, -, h⟩ | ⟨w, -, h⟩ | h <;> rw [h]
  · rcases writeReg_cases s r v with ⟨-, h⟩ | ⟨-, h⟩ | ⟨-, h⟩ | h <;> (rw [h]; try rfl)
  · exact State.writeTxWord_issues ..

@[simp] theorem State.portWrite_tx (s : State) (off : Offset) (v : Word) :
    (s.portWrite off v).tx = s.tx := by
  rcases portWrite_cases s off v with ⟨r, -, h⟩ | ⟨w, -, h⟩ | h <;> rw [h]
  · rcases writeReg_cases s r v with ⟨-, h⟩ | ⟨-, h⟩ | ⟨-, h⟩ | h <;> (rw [h]; try rfl)
  · exact State.writeTxWord_tx ..

@[simp] theorem State.portWrite_txSnap (s : State) (off : Offset) (v : Word) :
    (s.portWrite off v).txSnap = s.txSnap := by
  rcases portWrite_cases s off v with ⟨r, -, h⟩ | ⟨w, -, h⟩ | h <;> rw [h]
  · rcases writeReg_cases s r v with ⟨-, h⟩ | ⟨-, h⟩ | ⟨-, h⟩ | h <;> (rw [h]; try rfl)
  · exact State.writeTxWord_txSnap ..

@[simp] theorem State.portWrite_rx (s : State) (off : Offset) (v : Word) :
    (s.portWrite off v).rx = s.rx := by
  rcases portWrite_cases s off v with ⟨r, -, h⟩ | ⟨w, -, h⟩ | h <;> rw [h]
  · rcases writeReg_cases s r v with ⟨-, h⟩ | ⟨-, h⟩ | ⟨-, h⟩ | h <;> (rw [h]; try rfl)
  · exact State.writeTxWord_rx ..

@[simp] theorem State.portWrite_rxSnap (s : State) (off : Offset) (v : Word) :
    (s.portWrite off v).rxSnap = s.rxSnap := by
  rcases portWrite_cases s off v with ⟨r, -, h⟩ | ⟨w, -, h⟩ | h <;> rw [h]
  · rcases writeReg_cases s r v with ⟨-, h⟩ | ⟨-, h⟩ | ⟨-, h⟩ | h <;> (rw [h]; try rfl)
  · exact State.writeTxWord_rxSnap ..

@[simp] theorem State.portWrite_fifo (s : State) (off : Offset) (v : Word) :
    (s.portWrite off v).fifo = s.fifo := by
  rcases portWrite_cases s off v with ⟨r, -, h⟩ | ⟨w, -, h⟩ | h <;> rw [h]
  · rcases writeReg_cases s r v with ⟨-, h⟩ | ⟨-, h⟩ | ⟨-, h⟩ | h <;> (rw [h]; try rfl)
  · exact State.writeTxWord_fifo ..

@[simp] theorem State.portWrite_mag (s : State) (off : Offset) (v : Word) :
    (s.portWrite off v).mag = s.mag := by
  rcases portWrite_cases s off v with ⟨r, -, h⟩ | ⟨w, -, h⟩ | h <;> rw [h]
  · rcases writeReg_cases s r v with ⟨-, h⟩ | ⟨-, h⟩ | ⟨-, h⟩ | h <;> (rw [h]; try rfl)
  · exact State.writeTxWord_mag ..

@[simp] theorem State.portWrite_rstAsserted (s : State) (off : Offset) (v : Word) :
    (s.portWrite off v).rstAsserted = s.rstAsserted := by
  rcases portWrite_cases s off v with ⟨r, -, h⟩ | ⟨w, -, h⟩ | h <;> rw [h]
  · rcases writeReg_cases s r v with ⟨-, h⟩ | ⟨-, h⟩ | ⟨-, h⟩ | h <;> (rw [h]; try rfl)
  · exact State.writeTxWord_rstAsserted ..

@[simp] theorem State.portWrite_resets (s : State) (off : Offset) (v : Word) :
    (s.portWrite off v).resets = s.resets := by
  rcases portWrite_cases s off v with ⟨r, -, h⟩ | ⟨w, -, h⟩ | h <;> rw [h]
  · rcases writeReg_cases s r v with ⟨-, h⟩ | ⟨-, h⟩ | ⟨-, h⟩ | h <;> (rw [h]; try rfl)
  · exact State.writeTxWord_resets ..

@[simp] theorem State.portWrite_inputs (s : State) (off : Offset) (v : Word) :
    (s.portWrite off v).inputs = s.inputs := by
  rcases portWrite_cases s off v with ⟨r, -, h⟩ | ⟨w, -, h⟩ | h <;> rw [h]
  · rcases writeReg_cases s r v with ⟨-, h⟩ | ⟨-, h⟩ | ⟨-, h⟩ | h <;> (rw [h]; try rfl)
  · exact State.writeTxWord_inputs ..

@[simp] theorem State.portWrite_port (s : State) (off : Offset) (v : Word) :
    (s.portWrite off v).port = s.port := by
  rcases portWrite_cases s off v with ⟨r, -, h⟩ | ⟨w, -, h⟩ | h <;> rw [h]
  · rcases writeReg_cases s r v with ⟨-, h⟩ | ⟨-, h⟩ | ⟨-, h⟩ | h <;> (rw [h]; try rfl)
  · exact State.writeTxWord_port ..

@[simp] theorem State.portWrite_txStream (s : State) (off : Offset) (v : Word) :
    (s.portWrite off v).txStream = s.txStream := by
  rcases portWrite_cases s off v with ⟨r, -, h⟩ | ⟨w, -, h⟩ | h <;> rw [h]
  · rcases writeReg_cases s r v with ⟨-, h⟩ | ⟨-, h⟩ | ⟨-, h⟩ | h <;> (rw [h]; try rfl)
  · exact State.writeTxWord_txStream ..

end Sys2Proof.Machine
end

