-- ==== Sys2Proof/Laws/Modulator.lean ====
section
/-! SUPPORT. The modulator's small lemmas: symbols and the slot plan (R175, R177), the configuration functions' bounds
(R176, R179) and the envelope's (R178). -/

namespace Sys2Proof.Machine

open Sys2Proof

/-! Symbols (R175). -/

/-- The symbol of the first `n` bits of position `j`, first bit most significant. -/
def symbolPart (cb : List Bool) (j b n : Nat) : Nat :=
  (List.range n).foldl (fun acc k => 2 * acc + (cb.getD (j * b + k) false).toNat) 0

theorem symbolPart_succ (cb : List Bool) (j b n : Nat) :
    symbolPart cb j b (n + 1) = 2 * symbolPart cb j b n + (cb.getD (j * b + n) false).toNat := by
  simp [symbolPart, List.range_succ]

theorem symbolAt_eq (b : Nat) (cb : List Bool) (j : Nat) : symbolAt b cb j = symbolPart cb j b b := rfl

theorem symbolPart_lt (cb : List Bool) (j b n : Nat) : symbolPart cb j b n < 2 ^ n := by
  induction n with
  | zero => simp [symbolPart]
  | succ n ih =>
    rw [symbolPart_succ]
    have h := Bool.toNat_lt (cb.getD (j * b + n) false)
    rw [pow_succ]
    omega

/-- R175: a symbol of `b` bits is below M = 2^b. -/
theorem symbolAt_lt (b : Nat) (cb : List Bool) (j : Nat) : symbolAt b cb j < 2 ^ b := symbolPart_lt cb j b b

/-- R175: a symbol as the sum of its bits' weights. -/
theorem symbolPart_eq_sum (cb : List Bool) (j b n : Nat) :
    symbolPart cb j b n =
      ((List.range n).map (fun k => (cb.getD (j * b + k) false).toNat * 2 ^ (n - 1 - k))).sum := by
  induction n with
  | zero => rfl
  | succ n ih =>
    rw [symbolPart_succ, ih, List.range_succ, List.map_append, List.sum_append, ← List.sum_map_mul_left]
    congr 1
    · congr 1
      apply List.map_congr_left
      intro k hk
      have hk : k < n := List.mem_range.1 hk
      rw [show n + 1 - 1 - k = (n - 1 - k) + 1 by omega, pow_succ]
      ring
    · simp

/-- R175, R232: bit `k` of a symbol, counted from its first, is its coded bit. -/
theorem testBit_symbolPart (cb : List Bool) (j b n k : Nat) (hk : k < n) :
    (symbolPart cb j b n).testBit (n - 1 - k) = cb.getD (j * b + k) false := by
  induction n generalizing k with
  | zero => omega
  | succ n ih =>
    rw [symbolPart_succ]
    by_cases h : k = n
    · subst h
      rw [show k + 1 - 1 - k = 0 by omega, Nat.testBit_zero]
      cases cb.getD (j * b + k) false <;> simp
    · rw [show n + 1 - 1 - k = (n - 1 - k) + 1 by omega, Nat.testBit_succ,
        show (2 * symbolPart cb j b n + (cb.getD (j * b + n) false).toNat) / 2 = symbolPart cb j b n by
          have := Bool.toNat_lt (cb.getD (j * b + n) false)
          omega]
      exact ih k (by omega)

@[simp] theorem symbolsOf_length (b : Nat) (cb : List Bool) :
    (symbolsOf b cb).length = symbolCount b cb.length := by simp [symbolsOf]

/-! The slot plan (R177). -/

@[simp] theorem preamble_length : preamble.length = 13 := rfl

theorem slotPlan_length (m b : Nat) (cb : List Bool) :
    (slotPlan m b cb).length = 13 + cdiv cb.length b := by
  simp [slotPlan, symbolCount]

/-- R61: every slot's tone is one of 0 to M. -/
theorem slotPlan_tone_le (b : Nat) (cb : List Bool) : ∀ sl ∈ slotPlan (2 ^ b) b cb, sl.tone ≤ 2 ^ b := by
  intro sl h
  simp only [slotPlan, List.mem_append, List.mem_map] at h
  rcases h with ⟨on, -, rfl⟩ | ⟨sym, hs, rfl⟩
  · exact le_refl _
  · simp only [symbolsOf, List.mem_map] at hs
    obtain ⟨j, -, rfl⟩ := hs
    exact le_of_lt (symbolAt_lt b cb j)

/-! The configuration functions (R176, R179, R206). -/

theorem sine_bounds (p : Word) : -32767 ≤ sine p ∧ sine p ≤ 32767 := by
  unfold sine
  split_ifs <;> omega

theorem cosineRise_le (q p : Nat) : cosineRise q p ≤ 32768 := by
  induction p with
  | zero => simp [cosineRise]
  | succ p ih => simp [cosineRise, ih]

theorem raisedCosine_le (p q : Nat) : raisedCosine p q ≤ 32768 := by
  unfold raisedCosine
  split_ifs
  · exact le_refl _
  · exact cosineRise_le q p

/-! The envelope (R178). -/

theorem fadeValue_le (raised : Bool) (p q : Nat) (hp : p ≤ q) : fadeValue raised p q ≤ 32768 := by
  unfold fadeValue
  split_ifs
  · exact raisedCosine_le p q
  · rcases Nat.eq_zero_or_pos q with h | h
    · simp [h]
    · rw [Nat.div_le_iff_le_mul_add_pred h]
      have : 32768 * p ≤ 32768 * q := Nat.mul_le_mul_left _ hp
      rw [Nat.mul_comm q]
      omega

theorem envelope_le (sn : TxSnap) (on : Bool) (i : Nat) : envelope sn on i ≤ 32768 := by
  unfold envelope
  simp only
  split_ifs <;> omega

end Sys2Proof.Machine
end

