-- ==== Sys2Proof/Laws/PerInstr.lean ====
section
/-! SUPPORT. One family of statements about the commands as syntax (spec R100 to R103), with a lemma for each. -/

namespace Sys2Proof.Laws.Encoding

open Sys2Proof

/-- R102: a command's word is legal, has the command's OPCODE in bits 7:0 and zeros above, and decodes to it. -/
def Statement (i : Instr) : Prop :=
  i.wellFormed = true ∧ mbzField (encode i) = 0 ∧ (opcodeField (encode i), i) ∈ opcodeMap ∧ decode (encode i) = .ok i

theorem nop : Statement .nop := by unfold Statement; decide
theorem txStart : Statement .txStart := by unfold Statement; decide
theorem txAbort : Statement .txAbort := by unfold Statement; decide
theorem validateTx : Statement .validateTx := by unfold Statement; decide
theorem validateRx : Statement .validateRx := by unfold Statement; decide
theorem rxEnable : Statement .rxEnable := by unfold Statement; decide
theorem rxFinish : Statement .rxFinish := by unfold Statement; decide
theorem rxAbort : Statement .rxAbort := by unfold Statement; decide
theorem resPop : Statement .resPop := by unfold Statement; decide
theorem softReset : Statement .softReset := by unfold Statement; decide

end Sys2Proof.Laws.Encoding
end

