-- ==== Sys2Proof/Laws/Port.lean ====
section
/-! SUPPORT. What each offset of the port reaches, and reads and writes there (R20, R57, R81, R84 to R87),
and the fields of the composed words (R27, R39, R56). -/

namespace Sys2Proof.Machine

open Sys2Proof

/-- A lookup finds an entry of the list. -/
theorem mem_of_lookup_eq_some {α β : Type} [BEq α] [LawfulBEq α] (l : List (α × β)) (a : α) (b : β)
    (h : l.lookup a = some b) : (a, b) ∈ l := by
  induction l with
  | nil => simp at h
  | cons c rest ih =>
    obtain ⟨x, y⟩ := c
    by_cases hx : a = x
    · subst hx
      simp only [List.lookup, BEq.rfl, Option.some.injEq] at h
      simp [h]
    · have hb : (a == x) = false := by simpa using hx
      simp only [List.lookup, hb] at h
      exact List.mem_cons_of_mem _ (ih h)

/-- The offset of a register of the map reaches it (R20, R81). -/
theorem targetOf_reg : ∀ p ∈ regMap, targetOf (BitVec.ofNat 15 p.1) = .reg p.2 := by decide

/-- An offset that reaches a register is that register's offset in the map (R20). -/
theorem mem_regMap_of_targetOf {off : Offset} {r : Reg} (h : targetOf off = .reg r) : (off.toNat, r) ∈ regMap := by
  unfold targetOf at h
  simp only at h
  split at h
  · cases hl : regMap.lookup off.toNat with
    | none => simp [hl] at h
    | some q =>
      simp only [hl, Target.reg.injEq] at h
      subst h
      exact mem_of_lookup_eq_some _ _ _ hl
  · split at h <;> try simp at h
    split at h <;> try simp at h
    split at h <;> simp at h

/-- Word `w` of the TX payload RAM window (R57, R81). -/
theorem targetOf_txRam (w : Nat) (h : w < 1024) : targetOf (BitVec.ofNat 15 (0x1000 + 4 * w)) = .txRam w := by
  unfold targetOf
  rw [BitVec.toNat_ofNat, Nat.mod_eq_of_lt (by omega)]
  simp only
  rw [if_neg (by omega), if_pos (by omega)]
  congr 1
  omega

/-- Word `w` of the RX payload window (R57, R81). -/
theorem targetOf_rxPayload (w : Nat) (h : w < 1024) :
    targetOf (BitVec.ofNat 15 (0x2000 + 4 * w)) = .rxPayload w := by
  unfold targetOf
  rw [BitVec.toNat_ofNat, Nat.mod_eq_of_lt (by omega)]
  simp only
  rw [if_neg (by omega), if_neg (by omega), if_pos (by omega)]
  congr 1
  omega

/-- Word `k` of the MAG buffer (R57, R81). -/
theorem targetOf_mag (k : Nat) (h : k ≤ 2048) : targetOf (BitVec.ofNat 15 (0x4000 + 4 * k)) = .mag k := by
  unfold targetOf
  rw [BitVec.toNat_ofNat, Nat.mod_eq_of_lt (by omega)]
  simp only
  rw [if_neg (by omega), if_neg (by omega), if_neg (by omega), if_pos (by omega)]
  congr 1
  omega

theorem State.portRead_reg (s : State) {o : Nat} {r : Reg} (h : (o, r) ∈ regMap) :
    s.portRead (BitVec.ofNat 15 o) = s.readReg r := by
  unfold State.portRead
  rw [targetOf_reg _ h]

theorem State.portWrite_reg (s : State) {o : Nat} {r : Reg} (h : (o, r) ∈ regMap) (v : Word) :
    s.portWrite (BitVec.ofNat 15 o) v = s.writeReg r v := by
  unfold State.portWrite
  rw [targetOf_reg _ h]

/-- R87: byte `q` of a word of four bytes. -/
theorem byteOfWord_wordOfBytes (b0 b1 b2 b3 : Byte) :
    byteOfWord (wordOfBytes b0 b1 b2 b3) 0 = b0 ∧ byteOfWord (wordOfBytes b0 b1 b2 b3) 1 = b1 ∧
      byteOfWord (wordOfBytes b0 b1 b2 b3) 2 = b2 ∧ byteOfWord (wordOfBytes b0 b1 b2 b3) 3 = b3 := by
  unfold wordOfBytes byteOfWord
  refine ⟨?_, ?_, ?_, ?_⟩ <;> apply BitVec.eq_of_getLsbD_eq <;> intro k hk <;>
    simp only [BitVec.getLsbD_extractLsb', BitVec.getLsbD_append, hk, decide_true, Bool.true_and]
  · simp [hk]
  · rw [if_neg (by omega), if_pos (by omega)]
    congr 1
    omega
  · rw [if_neg (by omega), if_neg (by omega), if_pos (by omega)]
    congr 1
    omega
  · rw [if_neg (by omega), if_neg (by omega), if_neg (by omega)]
    congr 1
    omega

/-- R87: byte `q` of word `w` of a window is the window's byte `4w + q`. -/
theorem byteOfWord_windowWord (f : Nat → Byte) (w q : Nat) (h : q < 4) :
    byteOfWord (windowWord f w) q = f (4 * w + q) := by
  obtain ⟨h0, h1, h2, h3⟩ := byteOfWord_wordOfBytes (f (4 * w)) (f (4 * w + 1)) (f (4 * w + 2)) (f (4 * w + 3))
  obtain rfl | rfl | rfl | rfl : q = 0 ∨ q = 1 ∨ q = 2 ∨ q = 3 := by omega
  · exact h0
  · exact h1
  · exact h2
  · exact h3

/-- The fields of STATUS (R27), reserved bits included. -/
theorem State.statusWord_fields (s : State) :
    s.statusWord.extractLsb' 0 2 = s.tx.stateCode ∧ s.statusWord.getLsbD 2 = s.tx.abort ∧
    s.statusWord.getLsbD 3 = false ∧ s.statusWord.extractLsb' 4 3 = s.rx.state.code ∧
    s.statusWord.getLsbD 7 = false ∧ s.statusWord.extractLsb' 8 4 = s.tx.outcome.code ∧
    s.statusWord.extractLsb' 12 4 = s.rx.outcome.code ∧ s.statusWord.getLsbD 16 = s.cmdErr ∧
    s.statusWord.getLsbD 17 = s.resOvf ∧ s.statusWord.extractLsb' 18 2 = 0 ∧
    s.statusWord.extractLsb' 20 4 = BitVec.ofNat 4 s.fifo.length ∧ s.statusWord.extractLsb' 24 8 = 0 := by
  unfold State.statusWord
  generalize s.tx.stateCode = a, s.rx.state.code = b, s.tx.outcome.code = c, s.rx.outcome.code = d,
    BitVec.ofNat 4 s.fifo.length = e
  refine ⟨?_, ?_, ?_, ?_, ?_, ?_, ?_, ?_, ?_, ?_, ?_, ?_⟩
  all_goals try apply BitVec.eq_of_getLsbD_eq; intro k hk
  all_goals simp only [BitVec.getLsbD_extractLsb', BitVec.getLsbD_append]
  all_goals try interval_cases k
  all_goals simp

/-- The fields of RES_STATUS (R56), reserved bits included. -/
theorem resStatusOf_fields (e : ResultEntry) :
    (resStatusOf e).getLsbD 0 = true ∧ (resStatusOf e).extractLsb' 1 3 = 0 ∧
    (resStatusOf e).extractLsb' 4 4 = e.code.code ∧ (resStatusOf e).extractLsb' 8 4 = e.reason.code ∧
    (resStatusOf e).getLsbD 12 = (e.erasures != 0) ∧ (resStatusOf e).getLsbD 13 = (e.corrected != 0) ∧
    (resStatusOf e).extractLsb' 14 2 = 0 ∧ (resStatusOf e).extractLsb' 16 4 = e.hflags ∧
    (resStatusOf e).extractLsb' 20 12 = 0 := by
  unfold resStatusOf
  generalize e.code.code = a, e.reason.code = b, e.hflags = c, (e.erasures != 0) = d, (e.corrected != 0) = f
  refine ⟨?_, ?_, ?_, ?_, ?_, ?_, ?_, ?_, ?_⟩
  all_goals try apply BitVec.eq_of_getLsbD_eq; intro k hk
  all_goals simp only [BitVec.getLsbD_extractLsb', BitVec.getLsbD_append]
  all_goals try interval_cases k
  all_goals simp

/-- The fields of PARAMS0 (R39), reserved bits included. -/
theorem params0Word_fields (p : Params) :
    (params0Word p).extractLsb' 0 16 = BitVec.ofNat 16 p.maxLen ∧
    (params0Word p).extractLsb' 16 4 = BitVec.ofNat 4 p.resultDepth ∧ (params0Word p).extractLsb' 20 12 = 0 := by
  unfold params0Word
  generalize BitVec.ofNat 16 p.maxLen = a, BitVec.ofNat 4 p.resultDepth = b
  refine ⟨?_, ?_, ?_⟩
  all_goals apply BitVec.eq_of_getLsbD_eq; intro k hk
  all_goals simp only [BitVec.getLsbD_extractLsb', BitVec.getLsbD_append]
  all_goals interval_cases k
  all_goals simp
end Sys2Proof.Machine
end

