-- ==== Sys2Proof/Laws/Receiver.lean ====
section
/-! SUPPORT. The receiver's small lemmas: the winner and the runner-up of a symbol (R232), the frames of a session (R205),
what a validated snapshot guarantees (R201, R202) and the stages of assembly (R250). -/

namespace Sys2Proof.Machine

open Sys2Proof Sys2Proof.Safety

/-! The symbol decision (R232). -/

/-- Taking the greatest of a list, from a start. -/
theorem foldl_max_spec (m : List Nat) (a : Nat) :
    a ≤ m.foldl max a ∧ (∀ k ∈ m, k ≤ m.foldl max a) ∧ (m.foldl max a = a ∨ m.foldl max a ∈ m) := by
  induction m generalizing a with
  | nil => simp
  | cons x m ih =>
    have hx := ih (max a x)
    simp only [List.foldl_cons, List.mem_cons]
    refine ⟨by omega, ?_, ?_⟩
    · rintro k (rfl | hk)
      · omega
      · exact hx.2.1 k hk
    · rcases hx.2.2 with h | h
      · rw [h]
        rcases le_total a x with h' | h'
        · exact .inr (.inl (by omega))
        · exact .inl (by omega)
      · exact .inr (.inr h)

theorem le_greatest (m : List Nat) (k : Nat) (h : k ∈ m) : k ≤ greatest m := (foldl_max_spec m 0).2.1 k h

theorem greatest_mem (m : List Nat) (h : m ≠ []) : greatest m ∈ m := by
  rcases (foldl_max_spec m 0).2.2 with h0 | h0
  · obtain ⟨x, rest, rfl⟩ := List.exists_cons_of_ne_nil h
    have hg : greatest (x :: rest) = 0 := h0
    have hx := le_greatest (x :: rest) x (by simp)
    have hx0 : x = 0 := by omega
    rw [hg, ← hx0]
    simp
  · exact h0

theorem getD_le_greatest (m : List Nat) (k : Nat) : m.getD k 0 ≤ greatest m := by
  by_cases h : k < m.length
  · rw [List.getD_eq_getElem _ _ h]
    exact le_greatest _ _ (List.getElem_mem _)
  · rw [List.getD_eq_default _ _ (by omega)]
    omega

/-- The winner is the least tone of greatest magnitude. -/
theorem winner_spec (m : List Nat) (h : m ≠ []) :
    winner m < m.length ∧ m.getD (winner m) 0 = greatest m ∧ ∀ k, k < winner m → m.getD k 0 < greatest m := by
  have hl : winner m < m.length := List.findIdx_lt_length_of_exists ⟨_, greatest_mem m h, by simp⟩
  refine ⟨hl, ?_, fun k hk => ?_⟩
  · rw [List.getD_eq_getElem _ _ hl]
    have hw := List.findIdx_getElem (w := hl) (p := (· == greatest m)) (xs := m)
    exact beq_iff_eq.1 hw
  · have hn := List.not_of_lt_findIdx (p := (· == greatest m)) (xs := m) hk
    rw [List.getD_eq_getElem _ _ (by omega)]
    have hle := le_greatest m m[k] (List.getElem_mem _)
    have hne : m[k] ≠ greatest m := by simpa using hn
    omega

/-- Every tone but the winner is at most the runner-up. -/
theorem le_runnerUp (m : List Nat) (k : Nat) (hk : k < m.length) (h : k ≠ winner m) : m.getD k 0 ≤ runnerUp m := by
  apply le_greatest
  rw [List.getD_eq_getElem _ _ hk, List.mem_eraseIdx_iff_getElem]
  exact ⟨k, hk, h, rfl⟩

/-- The runner-up is the magnitude of a tone other than the winner. -/
theorem exists_runnerUp (m : List Nat) (h : 2 ≤ m.length) :
    ∃ k, k < m.length ∧ k ≠ winner m ∧ m.getD k 0 = runnerUp m := by
  have hm : m ≠ [] := by
    rintro rfl
    simp at h
  have hne : m.eraseIdx (winner m) ≠ [] := by
    intro e
    have hl := congrArg List.length e
    rw [List.length_eraseIdx_of_lt (winner_spec m hm).1] at hl
    simp at hl
    omega
  have hmem := greatest_mem _ hne
  rw [List.mem_eraseIdx_iff_getElem] at hmem
  obtain ⟨k, hk, hkw, e⟩ := hmem
  exact ⟨k, hk, hkw, by rw [List.getD_eq_getElem _ _ hk, e]; rfl⟩

@[simp] theorem symbolBits_length (b : Nat) (o : Option Nat) : (symbolBits b o).length = b := by
  cases o <;> simp [symbolBits]

/-! The frames of a session (R205, R207, R230). -/

/-- A sample that completes a frame adds one to the frames computed. -/
theorem framesAfter_succ_due (sn : RxSnap) (n : Nat) (hh : 0 < sn.h)
    (h : frameDue sn (n + 1) = true) : framesAfter sn (n + 1) = framesAfter sn n + 1 := by
  simp only [frameDue, Bool.and_eq_true, decide_eq_true_eq, beq_iff_eq] at h
  obtain ⟨hle, hmod⟩ := h
  unfold framesAfter
  rw [if_neg (by omega)]
  split
  · rw [show n + 1 - sn.n = 0 by omega]
    simp
  · obtain ⟨k, hk⟩ := Nat.dvd_of_mod_eq_zero hmod
    obtain ⟨j, rfl⟩ : ∃ j, k = j + 1 := by
      refine ⟨k - 1, ?_⟩
      rcases Nat.eq_zero_or_pos k with h0 | h0
      · subst h0
        simp at hk
        omega
      · omega
    have hq : n - sn.n = sn.h * j + (sn.h - 1) := by
      rw [Nat.mul_add] at hk
      omega
    rw [hk, hq, Nat.mul_div_cancel_left _ hh, Nat.mul_add_div hh, Nat.div_eq_of_lt (by omega), Nat.add_zero]

/-- A sample that completes no frame adds none. -/
theorem framesAfter_succ_not_due (sn : RxSnap) (n : Nat) (h : frameDue sn (n + 1) = false) :
    framesAfter sn (n + 1) = framesAfter sn n := by
  simp only [frameDue, Bool.and_eq_false_iff, decide_eq_false_iff_not, beq_eq_false_iff_ne] at h
  unfold framesAfter
  by_cases hc : n + 1 < sn.n
  · rw [if_pos hc, if_pos (by omega)]
  · have hm : (n + 1 - sn.n) % sn.h ≠ 0 := h.resolve_left (by omega)
    have hle : sn.n ≤ n := by
      by_contra hlt
      rw [show n + 1 - sn.n = 0 by omega] at hm
      simp at hm
    rw [if_neg hc, if_neg (by omega), show n + 1 - sn.n = (n - sn.n) + 1 by omega, Nat.succ_div, if_neg, Nat.add_zero]
    intro hd
    rw [show n + 1 - sn.n = (n - sn.n) + 1 by omega] at hm
    exact hm (Nat.mod_eq_zero_of_dvd hd)

/-- The symbols' frames rise (R230). -/
theorem symbolFrame_lt_succ (sn : RxSnap) (h : snapOk sn) (t0 j : Nat) :
    symbolFrame sn t0 j < symbolFrame sn t0 (j + 1) := by
  obtain ⟨-, h2, h3, h4, h5, -⟩ := h
  unfold symbolFrame
  have hlt : cdiv ((13 + j) * sn.s) sn.h < cdiv ((13 + (j + 1)) * sn.s) sn.h := by
    rw [lt_cdiv_iff _ _ _ h2]
    have hb := cdiv_mul_lt ((13 + j) * sn.s) sn.h h2
    have he : (13 + (j + 1)) * sn.s = (13 + j) * sn.s + sn.s := by ring
    omega
  omega

/-! Validated snapshots (R201, R202). -/

/-- A snapshot taken after a validation that reports no issue is as `snapOk` says. -/
theorem snapOk_of_noIssue (p : Params) (st : Settings) (ec : EcLevel) (margin : Nat)
    (h : anyIssue (issuesRx p st) = false) (hec : ecLevelOf st.ecField = some ec) :
    snapOk (rxSnapOf st ec margin) := by
  rw [anyIssue_issuesRx] at h
  obtain ⟨-, -, -, ht, hr, -, -, -, hws, hwf, -, -⟩ := h
  have hws : st.winSize ≤ 4 := by simpa [issueWinSize] using hws
  have hwf : st.winN + 2 * st.hop ≤ st.nb := by simpa [issueWindowFit, hws] using hwf
  have ht : 1 ≤ st.tonesLog2 ∧ st.tonesLog2 ≤ 4 := by
    simpa [issueTones, Settings.tonesOk, Nat.one_le_iff_ne_zero] using ht
  have hn : 0 < st.winN := Nat.pow_pos (by norm_num)
  have hd : st.winN * st.winOverlap.toNat / 256 < st.winN := by
    rw [Nat.div_lt_iff_lt_mul (by norm_num)]
    exact Nat.mul_lt_mul_of_pos_left st.winOverlap.isLt hn
  refine ⟨hn, ?_, ?_, hwf, ?_, ht.1, ht.2, by simp [rxSnapOf], rfl, fun hb => ?_⟩
  · show 0 < st.winN - st.winN * st.winOverlap.toNat / 256
    omega
  · show st.winN - st.winN * st.winOverlap.toNat / 256 ≤ st.winN
    omega
  · show st.nb ≤ st.nb + st.ng
    omega
  · have hb : ec = .basic := hb
    subst hb
    have hf : st.ecField = 1 := by
      have : ∀ f : BitVec 2, ecLevelOf f = some .basic → f = 1 := by decide
      exact this _ hec
    have hodd : st.redundancy.toNat % 2 ≠ 0 := by simpa [issueRedundancy, hf] using hr
    show st.redundancy.toNat % 2 = 1
    omega

/-! The stages of assembly (R250 to R254). -/

/-- The length field of three header bytes (R141, R250). -/
theorem headerLen_bitsOf (h0 h1 h2 : Byte) : headerLen (bitsOf [h0, h1, h2]) = 256 * h1.toNat + h2.toNat := by
  have e : bitsOf [h0, h1, h2] = byteBits h0 ++ (byteBits h1 ++ byteBits h2) := by simp
  have e1 : ((byteBits h0 ++ (byteBits h1 ++ byteBits h2)).drop 8).take 8 = byteBits h1 := by
    rw [← byteBits_length h0, List.drop_left, byteBits_length, ← byteBits_length h1, List.take_left]
  have e2 : ((byteBits h0 ++ (byteBits h1 ++ byteBits h2)).drop 16).take 8 = byteBits h2 := by
    rw [show 16 = (byteBits h0).length + 8 by simp, List.drop_length_add_append, ← byteBits_length h1,
      List.drop_left, byteBits_length, List.take_of_length_le (by simp)]
  unfold headerLen
  rw [e, e1, e2, byteOfBits_byteBits, byteOfBits_byteBits]

/-- The header stage goes on with a header that fits, or ends the region without OK. -/
theorem headerStage_cases (maxLen : Nat) (sn : RxSnap) (r : Region) :
    (∃ hdr, hdr.len ≤ maxLen ∧ headerStage maxLen sn r = .goOn
      { r with hdr := some hdr, d := some (cdiv (codedLen sn.ec sn.r (40 + 8 * hdr.len)) sn.b) }) ∨
    ∃ q code reason c, code ≠ .ok ∧ headerStage maxLen sn r = .finish q code reason c none := by
  unfold headerStage
  split
  · exact .inr ⟨_, _, _, _, by decide, rfl⟩
  · simp only
    split
    · exact .inr ⟨_, _, _, _, by decide, rfl⟩
    · split
      · exact .inr ⟨_, _, _, _, by decide, rfl⟩
      · split
        · exact .inr ⟨_, _, _, _, by decide, rfl⟩
        · exact .inl ⟨⟨_, _⟩, by simp only; omega, rfl⟩

/-- The body stage ends the region it is given. -/
theorem bodyCheck_cases (sn : RxSnap) (r : Region) (len : Nat) :
    ∃ code reason c payload, bodyCheck sn r len = .finish r code reason c payload ∧ (code ≠ .ok → payload = none) := by
  unfold bodyCheck
  split
  · exact ⟨_, _, _, _, rfl, fun _ => rfl⟩
  · simp only
    split
    · exact ⟨_, _, _, _, rfl, fun _ => rfl⟩
    · split
      · exact ⟨_, _, _, _, rfl, fun _ => rfl⟩
      · exact ⟨_, _, _, _, rfl, fun h => absurd rfl h⟩

/-- The body is at least 16 coded bits longer than the header (R252). -/
theorem codedLen_header_add_le (sn : RxSnap) (h : snapOk sn) (len : Nat) :
    codedLen sn.ec sn.r 24 + 16 ≤ codedLen sn.ec sn.r (40 + 8 * len) := by
  cases he : sn.ec
  · simp only [codedLen]
    omega
  · have hodd := h.2.2.2.2.2.2.2.2.2 he
    have hpos : 1 ≤ sn.r := by omega
    simp only [codedLen]
    nlinarith
  · simp only [codedLen]
    omega

end Sys2Proof.Machine
end

