-- ==== Sys2Proof/Tests/Slice0.lean ====
section
/-! SUPPORT. Tests of the model: the checks that refuse, every command's word, one or two single steps of each command,
and a witness for the hypotheses of every statement. The expected values are the spec's own examples or are worked out
by hand from its rules. -/

namespace Sys2Proof.Tests

open Sys2Proof Sys2Proof.Machine Sys2Proof.Safety

/-! Checks that refuse (R82, R83, R100, R103). -/

theorem test_wf_word_access : accessWellFormed 4 0x7FFC = true := by decide
theorem test_wf_refuses_halfword : accessWellFormed 2 0x000 = false := by decide
theorem test_wf_refuses_misaligned : accessWellFormed 4 0x002 = false := by decide
theorem test_wf_refuses_operand_bits : operandFieldZero 0x00000100 = false ∧ operandFieldZero 0x800000A5 = false := by
  decide
theorem test_wf_operand_field_zero : operandFieldZero 0x000000FF = true := by decide
theorem test_wf_bad_access : badAccess 8 0x000 = true ∧ badAccess 4 0x001 = true ∧ badAccess 4 0x000 = false := by
  decide
theorem test_wf_every_command : ∀ i ∈ opcodeMap.map Prod.snd, i.wellFormed = true := by decide
theorem test_memory_form_refused :
    Memory.wf [(2, 0x11#8), (1, 0x22#8)] = false ∧ Memory.wf [(1, 0x11#8), (1, 0x22#8)] = false := by decide
theorem test_params_refused :
    ({ maxLen := 0, resultDepth := 4, syncHistDepth := 64 } : Params).legal = false ∧
      ({ maxLen := 256, resultDepth := 16, syncHistDepth := 64 } : Params).legal = false ∧
      ({ maxLen := 256, resultDepth := 4, syncHistDepth := 63 } : Params).legal = false := by decide

/-! Every command's word, bits 31:8 zero and bits 7:0 the OPCODE of R102, written out. -/

theorem test_decode_nop : decodeTableWord 32 0b00000000000000000000000000000000 = some .nop := by decide
theorem test_decode_tx_start : decodeTableWord 32 0b00000000000000000000000000000001 = some .txStart := by decide
theorem test_decode_tx_abort : decodeTableWord 32 0b00000000000000000000000000000010 = some .txAbort := by decide
theorem test_decode_validate_tx : decodeTableWord 32 0b00000000000000000000000000000011 = some .validateTx := by decide
theorem test_decode_validate_rx : decodeTableWord 32 0b00000000000000000000000000000100 = some .validateRx := by decide
theorem test_decode_rx_enable : decodeTableWord 32 0b00000000000000000000000000010000 = some .rxEnable := by decide
theorem test_decode_rx_finish : decodeTableWord 32 0b00000000000000000000000000010001 = some .rxFinish := by decide
theorem test_decode_rx_abort : decodeTableWord 32 0b00000000000000000000000000010010 = some .rxAbort := by decide
theorem test_decode_res_pop : decodeTableWord 32 0b00000000000000000000000000010011 = some .resPop := by decide
theorem test_decode_soft_reset : decodeTableWord 32 0b00000000000000000000000010100101 = some .softReset := by decide
theorem test_decode_rejects_by_name :
    decode 0x00000100 = .error (.operandFieldNotZero 0x00000100) ∧ decode 0x00000005 = .error (.unknownOpcode 0x05) ∧
      decode 0x000000FF = .error (.unknownOpcode 0xFF) := ⟨rfl, rfl, rfl⟩

/-! Small states. -/

/-- What a test looks at in a step's outcome. -/
def seen {α : Type} (f : State → α) : Host.Outcome State Fault Refusal → Option α
  | .next s => some (f s)
  | .fault _ => none
  | .refused _ => none

/-- A snapshot of two-sample slots without fades: tone 0 at a quarter of FS, tone 1 at half of it. -/
def tinyTx : TxSnap where
  fs := 8
  m := 2
  b := 1
  nb := 2
  ng := 0
  s := 2
  ne := 2
  nfi := 0
  nfo := 0
  shape := false
  gmode := false
  amp := 32768
  inc := [0x40000000, 0x80000000, 0xC0000000]

/-- A transmission of two slots under `tinyTx`, at a slot, a sample of it and a pending abort. -/
def sending (slot i : Nat) (abort : Bool) : State :=
  { State.reset with
    txSnap := some tinyTx
    tx :=
      { state := .run, plan := [{ tone := 0, on := true }, { tone := 1, on := false }], slot := slot, i := i
        phase := 0x40000000, abort := abort, count := 2 * slot + i, total := 4, outcome := .none } }

/-- A snapshot of one-sample windows and three-sample slots, one bit a symbol, no error correction. -/
def tinyRx : RxSnap where
  fs := 8
  m := 2
  b := 1
  nb := 3
  ng := 0
  s := 3
  base := 1000
  n := 1
  h := 1
  wf := 0
  bin := [0, 1, 2]
  k := 36
  off := (List.range 13).map (fun i => 3 * i)
  ec := .none
  r := 3
  margin := 4
  minSig := 0
  errTol := 65535

/-- A session under `tinyRx` that has just started. -/
def listening : State :=
  { State.reset with rxSnap := some tinyRx, rx := { RxEngine.reset with state := .scanning } }

/-- A region of `tinyRx`, `j` symbols in. -/
def tinyRegion (j : Nat) : Region where
  t0 := 0
  s0 := 0
  strength := 1000
  j := j
  tf := 39 + 3 * j
  cb := List.replicate j (.bit false)
  erasures := 0
  sumw := 5
  sumr := 2
  hdr := none
  d := none

/-- A session with that region in progress. -/
def demodulating (j : Nat) : State :=
  { listening with
    rx :=
      { listening.rx with
        state := if j = 0 then .locked else .demod, lockedAny := true, reg := some (tinyRegion j) } }

/-- A result of a frame whose payload is one byte. -/
def oneByteResult : ResultEntry where
  code := .ok
  reason := .none
  hflags := 0
  len := 1
  start := 0
  stop := 100
  freq := 1000
  corrected := 0
  erasures := 0
  strength := 1
  symbols := 1
  sumw := 1
  sumr := 0
  payload := some [0x41]

def withResults (n : Nat) (s : State) : State := { s with fifo := List.replicate n oneByteResult }

/-- The sync energies of a preamble that starts at frame 0 under `tinyRx`. -/
def preambleEnergies : List Word :=
  (List.range 38).map (fun t => if t ∈ [0, 3, 6, 9, 12, 21, 24, 30, 36] then 1000 else 0)

/-! One or two single steps of each command. -/

theorem test_nop : seen (fun t => t.statusWord) (exec .nop (sending 0 1 true)) = some 0x5 := by decide

-- R121, R122 (examples): the reset settings have no issue. R285 (example): TX_LEN over MAXLEN.
theorem test_validate_tx : seen (fun t => t.issues) (exec .validateTx State.reset) = some 0 := by decide
theorem test_validate_tx_length :
    seen (fun t => t.issues)
      (exec .validateTx { State.reset with settings := { Settings.reset with txLen := 300 } }) = some 0x800 := by decide
theorem test_validate_rx : seen (fun t => t.issues) (exec .validateRx State.reset) = some 0x80000000 := by decide
theorem test_validate_rx_overlap :
    seen (fun t => t.issues)
      (exec .validateRx { State.reset with settings := { Settings.reset with freqSep := 0 } }) =
      some 0x80002200 := by decide

-- R181 with L = 0: 13 + 40 slots of 2205 samples. R285 (example).
theorem test_tx_start :
    seen (fun t => (t.tx.state, t.tx.total, t.issues, t.statusWord)) (exec .txStart State.reset) =
      some (.run, 116865, 0, 1) := by decide
theorem test_tx_start_invalid :
    seen (fun t => (t.tx.outcome, t.issues, t.irqStatus))
      (exec .txStart { State.reset with settings := { Settings.reset with txLen := 300, txMaxSamples := 1 } }) =
      some (.invalidSettings, 0x800, 1) := by decide

theorem test_tx_abort : seen (fun t => t.statusWord) (exec .txAbort (sending 1 1 false)) = some 0x5 := by decide
theorem test_tx_abort_idle : exec .txAbort State.reset = .next State.reset := rfl

-- R201, R202 (examples).
theorem test_rx_enable :
    seen (fun t => (t.issues, t.statusWord)) (exec .rxEnable State.reset) = some (0x80000000, 0x10) ∧
      seen (fun t => (t.rxSnap.map RxSnap.bin, t.rxSnap.map RxSnap.k)) (exec .rxEnable State.reset) =
        some (some [441, 464, 488], some 52) := by decide
theorem test_rx_enable_refused :
    seen (fun t => (t.cmdErr, t.irqStatus, t.issues)) (exec .rxEnable listening) = some (true, 0x20, 0) := by decide

-- R260: a session without a lock, and a region cut short after 2 symbols: end = 0 + (13 + 2) * 3.
theorem test_rx_finish_no_signal :
    seen (fun t => (t.rx.outcome, t.irqStatus, t.fifo)) (exec .rxFinish listening) = some (.noSignal, 0x08, []) := by
  decide
theorem test_rx_finish_truncated :
    seen (fun t => (t.rx.outcome, t.irqStatus, t.readReg .resStatus, t.readReg .resEnd, t.readReg .resFreq))
      (exec .rxFinish (demodulating 2)) = some (.ok, 0x0C, 0x751, 45, 1000) := by decide

theorem test_rx_abort :
    seen (fun t => (t.rx.state, t.rx.outcome, t.rx.reg, t.fifo)) (exec .rxAbort (demodulating 2)) =
      some (.idle, .cancelled, none, []) := by decide
theorem test_rx_abort_idle : exec .rxAbort State.reset = .next State.reset := rfl

theorem test_res_pop :
    seen (fun t => (t.statusWord, t.irqStatus)) (exec .resPop (withResults 2 State.reset)) = some (0x00100000, 0) := by
  decide
theorem test_res_pop_refused :
    seen (fun t => (t.statusWord, t.irqStatus)) (exec .resPop State.reset) = some (0x00010000, 0x20) := by decide

theorem test_soft_reset :
    seen (fun t => (t.statusWord, t.irqStatus, t.issues, t.settings.txLen, t.txSnap))
      (exec .softReset
        { sending 1 1 true with issues := 5, irqStatus := 3, settings := { Settings.reset with txLen := 7 } }) =
      some (0, 0, 0, 7, none) := by decide

/-! Steps that are no command. -/

-- R183: SIN(2^30) = 32767 (R176), the last sample of slot 0; the phase wraps to 2^31.
theorem test_emit :
    seen (fun t => (t.txStream, t.tx.slot, t.tx.i, t.tx.phase, t.tx.count))
      (step { sending 0 1 false with inputs := [.sinkReady] }) = some ([32767], 1, 0, 0x80000000, 2) := by decide
-- R183: a silent slot sends 0, and the plan's last sample ends the transmission with OK.
theorem test_emit_last :
    seen (fun t => (t.txStream, t.tx.state, t.tx.outcome, t.tx.abort, t.irqStatus))
      (step { sending 1 1 true with inputs := [.sinkReady] }) = some ([0], .idle, .ok, false, 1) := by decide
theorem test_cancel :
    seen (fun t => (t.tx.outcome, t.tx.count, t.irqStatus)) (step (sending 1 0 true)) = some (.cancelled, 2, 1) := by
  decide
theorem test_emit_waits_for_cancel :
    seen (fun t => (t.txStream, t.tx.count)) (step { sending 1 0 true with inputs := [.sinkReady, .txTurn] }) =
      some ([], 2) := by decide
-- R207: silence completes a frame of magnitude 0.
theorem test_rx_sample :
    seen (fun t => (t.rx.x, t.rx.n, t.rx.t, t.rx.hist)) (step { listening with inputs := [.sourceOffers 0] }) =
      some ([0], 1, 1, [0]) := by decide
-- R223, R225 (examples): the preamble with energy 1000 in every on slot gives strength 1000.
theorem test_lock :
    (State.detect { listening with rx := { listening.rx with hist := preambleEnergies } } tinyRx 37).rx.reg =
      some { t0 := 0, s0 := 0, strength := 1000, j := 0, tf := 39, cb := [], erasures := 0, sumw := 0, sumr := 0
             hdr := none, d := none } := by decide
-- R234 (example): m = (0, 900) gives 1.
theorem test_demod :
    ((demodRegion tinyRx (tinyRegion 0) [0, 900]).cb, (demodRegion tinyRx (tinyRegion 0) [0, 900]).sumw,
      (demodRegion tinyRx (tinyRegion 0) [0, 900]).tf) = ([.bit true], 905, 42) := by decide
-- R284 (example).
theorem test_irq_clear :
    seen (fun t => (t.irqStatus, t.irq, t.port))
      (step { State.reset with irqStatus := 0x09, irqEnable := 0x01, inputs := [.hostWrite 0x010 4 0x01] }) =
      some (0x08, false, .written) := by decide
-- R87: the first payload byte is the least significant.
theorem test_payload_write :
    seen (fun t => (t.txByte 4, t.txByte 7, t.txRam))
      (step { State.reset with inputs := [.hostWrite 0x1004 4 0x44434241] }) =
      some (0x41, 0x44, [(4, 0x41), (5, 0x42), (6, 0x43), (7, 0x44)]) := by decide
theorem test_read_id :
    seen (fun t => t.port) (step { State.reset with inputs := [.hostRead 0x000 4] }) = some (.data 0x46534B07) := by
  decide
theorem test_bus_error :
    seen (fun t => t.port) (step { State.reset with inputs := [.hostRead 0x002 4] }) = some (.readError 0) := by decide
theorem test_reset_held :
    seen (fun t => (t.rstAsserted, t.tx.state, t.resets)) (step { sending 1 0 false with inputs := [.resetAssert] }) =
      some (true, .idle, 1) := by decide
-- R178 (examples at the reset values).
theorem test_envelope :
    [0, 1, 2, 219, 220, 1984, 1985, 2204, 2205].map (envelope (txSnapOf Settings.reset) true) =
      [148, 296, 444, 32619, 32768, 32768, 32619, 148, 0] := by decide
-- R143: CRC-16/CCITT-FALSE of "A", by hand from the rule.
theorem test_crc : crc16 [0x41] = 0xB915 := by decide
-- R157 on the table of R152: nibble D is 10101010; here its c1 is flipped.
theorem test_block :
    decodeBlock [false, false, true, false, true, false, true, false] = some ([true, true, false, true], 1) := by decide

/-! Witnesses: for each statement with hypotheses, states and operands that meet them, at the ends of their ranges. A
schedule that names the step wanted. -/

def given (i : Input) (s : State) : State := { s with inputs := [i] }

theorem witness_decode_accepts :
    decode 0x000000A5 = .ok .softReset ∧ (0x00000100 : Word).extractLsb' 8 24 ≠ 0 ∧
      (0x80000000 : Word).extractLsb' 8 24 ≠ 0 ∧
      (∀ o ∈ ([0x05, 0x0F, 0x14, 0xA4, 0xA6, 0xFF] : List Byte),
        o ∉ ([0x00, 0x01, 0x02, 0x03, 0x04, 0x10, 0x11, 0x12, 0x13, 0xA5] : List Byte)) := ⟨rfl, by decide⟩

theorem witness_step_runs :
    (given (.hostWrite 0x008 4 0x13) State.reset).inputs = .hostWrite 0x008 4 0x13 :: [] ∧
      (given (.hostWrite 0x008 4 0x13) State.reset).rstAsserted = false ∧ decode 0x13 = .ok .resPop ∧
      Instr.wellFormed .resPop = true ∧ decodeTableWord 32 0xA5 = some .softReset := ⟨rfl, rfl, rfl, rfl, rfl⟩

theorem witness_refused :
    (given (.hostWrite 0x008 4 0x05) State.reset).inputs = .hostWrite 0x008 4 0x05 :: [] ∧
      (∀ i, decode 0x05 ≠ .ok i) ∧ (sending 0 0 false).tx.state = .run ∧ listening.rx.state ≠ .idle ∧
      State.reset.rx.state = .idle ∧ State.reset.fifo = [] ∧ ¬Refused .txStart State.reset ∧
      exec .txStart (sending 0 0 false) = .next (State.refuse (sending 0 0 false)) :=
  ⟨rfl, (by intro i h; cases h), rfl, by decide, rfl, rfl, by simp [Refused, State.reset, TxEngine.reset], rfl⟩

theorem witness_not_refused : ¬Refused .nop State.reset ∧ exec .nop State.reset = .next State.reset :=
  ⟨by simp [Refused], rfl⟩

theorem witness_bus_error :
    State.reset.rstAsserted = false ∧ (2 ≠ 4 ∨ (0x000 : Offset).toNat % 4 ≠ 0) ∧
      (4 ≠ 4 ∨ (0x7FFF : Offset).toNat % 4 ≠ 0) ∧ (0 ≠ 4 ∨ (0x7FFC : Offset).toNat % 4 ≠ 0) := ⟨rfl, by decide⟩

theorem witness_port_ranges :
    State.reset.rstAsserted = false ∧ (0x7FFC : Offset).toNat % 4 = 0 ∧ (0x7FFC : Offset) ≠ 0x008 ∧
      (0x000, Reg.id) ∈ regMap ∧ (0x0B8, Reg.resSumRun) ∈ regMap ∧ 1023 < 1024 ∧ 3 < 4 ∧ 2048 ≤ 2048 ∧
      (sending 0 0 false).tx.state = .run ∧ State.reset.tx.state = .idle := by decide

theorem witness_register_reads :
    Params.thisHardware.legal = true ∧ (withResults 15 State.reset).fifo.length ≤ 15 ∧ listening.rx.state = .scanning ∧
      (demodulating 0).rx.state = .locked ∧ (demodulating 0).rx.reg = some (tinyRegion 0) ∧
      (demodulating 2).rx.state = .demod ∧ (demodulating 2).rx.reg = some (tinyRegion 2) ∧
      State.reset.fifo = [] ∧ (withResults 1 State.reset).fifo = oneByteResult :: [] := by decide

theorem witness_unmapped :
    ∀ off ∈ ([0x068, 0x08C, 0x0BC, 0x0C0, 0x0FFC, 0x3000, 0x3FFC, 0x6004, 0x7FFC] : List Offset),
      unmappedOffset off = true := by simp [unmappedOffset]

theorem witness_reserved_bits : ReservedBitsOk State.reset ∧ (0x004, Reg.ctrl) ∈ regMap ∧ Reg.ctrl ≠ .cmd :=
  ⟨⟨by decide, by decide⟩, by decide⟩

theorem witness_register_access :
    ((0x004, Reg.ctrl) ∈ regMap ∧ (Reg.ctrl, (0x0007FF7F : Word)) ∈ rwMasks) ∧
      ((0x014, Reg.irqEnable) ∈ regMap ∧ (Reg.irqEnable, (0x3F : Word)) ∈ rwMasks) ∧
      ((0x064, Reg.freqHintHi) ∈ regMap ∧ (Reg.freqHintHi, (0xFFFFFFFF : Word)) ∈ rwMasks) ∧
      ((0x018, Reg.issues) ∈ regMap ∧ Reg.issues ∉ rwMasks.map Prod.fst) ∧ 0 < 6 ∧ 5 < 6 := by decide

theorem witness_event_bit_kept :
    (∃ t, step (given .sinkReady { State.reset with irqStatus := 0x21 }) = .next t) ∧
      (0x21 : BitVec 6).getLsbD 0 = true ∧ (0x21 : BitVec 6).getLsbD 5 = true := ⟨⟨_, rfl⟩, by decide⟩

/-- The reset settings with another budget. -/
def budget (n : Word) : State := { State.reset with settings := { Settings.reset with txMaxSamples := n } }

/-- A step from `s` that sets event bit `k`. -/
def setsBit (k : Nat) (s : State) : Bool :=
  match step s with
  | .next t => !s.irqStatus.getLsbD k && t.irqStatus.getLsbD k
  | _ => false

theorem witness_event_bit_set :
    setsBit 0 (given (.hostWrite 0x008 4 0x01) (budget 1)) = true ∧ setsBit 0 (given .sinkReady (sending 1 1 false)) = true ∧
      setsBit 0 (given .txTurn (sending 1 0 true)) = true ∧ setsBit 0 (sending 1 0 true) = true ∧
      setsBit 2 (given (.hostWrite 0x008 4 0x11) (demodulating 2)) = true ∧
      setsBit 3 (given (.hostWrite 0x008 4 0x11) listening) = true ∧
      setsBit 3 (given (.hostWrite 0x008 4 0x12) listening) = true ∧
      setsBit 4 (given (.hostWrite 0x008 4 0x11) (withResults 4 (demodulating 2))) = true ∧
      setsBit 5 (given (.hostWrite 0x008 4 0x13) State.reset) = true ∧
      setsBit 5 (given (.hostWrite 0x008 4 0x100) State.reset) = true := by decide

theorem witness_reset_step :
    (given .resetAssert (sending 1 1 true)).inputs = .resetAssert :: [] ∧
      (given .resetAssert (sending 1 1 true)).rstAsserted = false ∧
      (Reg.id, (0x46534B07 : Word)) ∈ resetValues ∧ (Reg.resSumRun, (0 : Word)) ∈ resetValues ∧
      ({ given .sinkReady State.reset with rstAsserted := true } : State).rstAsserted = true := by decide

theorem witness_settings_change :
    ∃ t, step (given (.hostWrite 0x024 4 7) State.reset) = .next t ∧
      (t.settings ≠ (given (.hostWrite 0x024 4 7) State.reset).settings ∨
        t.irqEnable ≠ (given (.hostWrite 0x024 4 7) State.reset).irqEnable) := ⟨_, rfl, by decide⟩

theorem witness_result_head :
    ∃ t, step (given (.sourceOffers 0) (withResults 2 listening)) = .next t ∧
      (given (.sourceOffers 0) (withResults 2 listening)).fifo = oneByteResult :: [oneByteResult] := ⟨_, rfl, rfl⟩

theorem witness_nop_status :
    ({ sending 0 0 false with rxSnap := some tinyRx, rx := listening.rx } : State).statusWord = 0x00000011 := by decide

theorem witness_res_pop :
    (withResults 1 State.reset).fifo = oneByteResult :: [] ∧
      (withResults 3 State.reset).fifo = oneByteResult :: oneByteResult :: [oneByteResult] ∧
      (withResults 2 State.reset).fifo = [oneByteResult, oneByteResult] ∧ State.reset.fifo = [] ∧
      exec .resPop (withResults 2 State.reset) = .next { withResults 2 State.reset with fifo := [oneByteResult] } :=
  ⟨rfl, rfl, rfl, rfl, rfl⟩

theorem witness_tx_start :
    State.reset.tx.state = .idle ∧ anyIssue (issuesTx State.reset.params State.reset.settings) = false ∧
      State.reset.settings.ctrl.extractLsb' 2 2 = EcLevel.none.code ∧ State.reset.settings.txMaxSamples.toNat = 0 := by
  decide

theorem witness_tx_start_budget :
    anyIssue (issuesTx (budget 116865).params (budget 116865).settings) = false ∧
      (13 + (codedLen .none 3 (40 + 8 * (budget 116865).settings.txLen.toNat) + 1 - 1) / 1) * (2205 + 0) ≤
        (budget 116865).settings.txMaxSamples.toNat := by decide

theorem witness_start_turned_away :
    (sending 0 0 false).tx.state = .run ∧
      anyIssue (issuesTx State.reset.params { Settings.reset with amplitude := 32769 }) = true ∧
      (budget 116864).tx.state = .idle ∧
      anyIssue (issuesTx (budget 116864).params (budget 116864).settings) = false ∧
      (budget 116864).settings.ctrl.extractLsb' 2 2 = EcLevel.none.code ∧
      (budget 116864).settings.txMaxSamples.toNat ≠ 0 ∧
      (budget 116864).settings.txMaxSamples.toNat <
        (13 + (codedLen .none 3 (40 + 8 * (budget 116864).settings.txLen.toNat) + 1 - 1) / 1) * (2205 + 0) ∧
      listening.rx.state ≠ .idle ∧
      (issuesRx State.reset.params { Settings.reset with bitDurMs := 0 }).getLsbD 1 = true := by decide

theorem witness_slot_plan :
    1 ≤ 1 ∧ 0 < 13 ∧ 12 < 13 ∧ 1 < ([true, false].length + 1 - 1) / 1 ∧ 1 < ([true, false, true].length + 2 - 1) / 2 ∧
      ({ tone := 2, on := false } : Slot).on = false := by decide

theorem witness_tx_abort :
    (sending 1 0 true).tx.state = .run ∧ (sending 1 0 true).tx.abort = true ∧ (sending 1 0 true).tx.i = 0 ∧
      State.reset.tx.state = .idle ∧
      exec .txAbort (sending 1 0 false) = .next { sending 1 0 false with tx := { (sending 1 0 false).tx with abort := true } } :=
  ⟨rfl, rfl, rfl, rfl, rfl⟩

theorem witness_rx_enable :
    State.reset.rx.state = .idle ∧ anyIssue (issuesRx State.reset.params State.reset.settings) = false ∧
      State.reset.settings.ctrl.extractLsb' 2 2 = EcLevel.none.code := by decide

theorem witness_rx_finish :
    listening.rx.state = .scanning ∧ (demodulating 0).rx.state = .locked ∧ (demodulating 2).rx.state = .demod ∧
      (demodulating 2).rxSnap = some tinyRx ∧ (demodulating 2).rx.reg = some (tinyRegion 2) ∧
      (withResults 3 (demodulating 2)).fifo.length < (withResults 3 (demodulating 2)).params.resultDepth ∧
      (withResults 4 (demodulating 2)).params.resultDepth ≤ (withResults 4 (demodulating 2)).fifo.length ∧
      State.reset.rx.state = .idle := by decide

theorem witness_rx_abort :
    (demodulating 0).rx.state ≠ .idle ∧ State.reset.rx.state = .idle ∧ State.reset.tx.state = .idle := by decide

theorem witness_engines :
    (∃ t, exec .softReset (sending 1 1 true) = .next t) ∧ (∃ t, exec .txAbort (sending 1 1 false) = .next t) ∧
      (∃ t, exec .rxFinish (demodulating 2) = .next t) ∧
      (∃ t, step (given (.sourceOffers 0) listening) = .next t) ∧
      (∃ t, step (given .sinkReady (sending 0 0 false)) = .next t) ∧
      (∃ t, step (given .txTurn (sending 1 0 true)) = .next t) := ⟨⟨_, rfl⟩, ⟨_, rfl⟩, ⟨_, rfl⟩, ⟨_, rfl⟩, ⟨_, rfl⟩, ⟨_, rfl⟩⟩

theorem witness_emit :
    ∀ p ∈ [(0, 0), (0, 1), (1, 1)],
      (given .sinkReady (sending p.1 p.2 false)).inputs = .sinkReady :: [] ∧ (sending p.1 p.2 false).tx.state = .run ∧
        ¬((sending p.1 p.2 false).tx.abort = true ∧ (sending p.1 p.2 false).tx.i = 0) ∧
        (sending p.1 p.2 false).txSnap = some tinyTx ∧
        ((sending p.1 p.2 false).tx.plan[(sending p.1 p.2 false).tx.slot]?).isSome = true := by decide

theorem witness_emit_cases : 0 + 1 ≠ tinyTx.s ∧ 1 + 1 = tinyTx.s ∧ 0 + 1 ≠ (sending 0 1 false).tx.plan.length ∧
    1 + 1 = (sending 1 1 false).tx.plan.length := by decide

theorem witness_transmission_ok : TransmissionOk (given .sinkReady (sending 1 1 false)) :=
  ⟨fun _ => ⟨tinyTx, rfl, by decide, by decide, rfl, rfl, rfl, by decide⟩, fun h => (by cases h), fun h => (by cases h)⟩

theorem witness_sample_leaves :
    ∃ t, step (given .sinkReady (sending 1 1 false)) = .next t ∧
      t.txStream ≠ (given .sinkReady (sending 1 1 false)).txStream := ⟨_, rfl, by decide⟩

theorem witness_cancel :
    (sending 1 0 true).rstAsserted = false ∧ (sending 1 0 true).tx.state = .run ∧ (sending 1 0 true).tx.abort = true ∧
      (sending 1 0 true).tx.i = 0 ∧ (given .txTurn (sending 1 0 true)).inputs = .txTurn :: [] ∧
      (sending 1 0 true).inputs = [] := by decide

theorem witness_running_kept :
    ∃ t, step (given (.hostWrite 0x1000 4 0x55) (sending 0 0 false)) = .next t ∧
      (given (.hostWrite 0x1000 4 0x55) (sending 0 0 false)).tx.state = .run ∧ t.tx.state = .run ∧
      (0x1000 : Offset) ≠ 0x008 := ⟨_, rfl, rfl, rfl, by decide⟩

/-- A transmission that has just started. -/
def justStarted : State := { sending 0 0 false with tx := { (sending 0 0 false).tx with phase := 0 } }

theorem witness_stream :
    TransmissionOk justStarted ∧ StreamOk justStarted ∧ ∃ t, step (given .sinkReady justStarted) = .next t :=
  ⟨⟨fun _ => ⟨tinyTx, rfl, by decide, by decide, rfl, rfl, rfl, by decide⟩, fun h => (by cases h), fun h => (by cases h)⟩,
    fun _ => ⟨tinyTx, [], rfl, rfl, rfl, fun h => (by cases h)⟩, ⟨_, rfl⟩⟩

/-- The same transmission with its last sample still to send. -/
def lastToSend : State :=
  { sending 1 1 false with
    txStream := streamSamples tinyTx (sending 1 1 false).tx.plan 3
    tx := { (sending 1 1 false).tx with phase := phaseAt tinyTx (sending 1 1 false).tx.plan 3 } }

theorem witness_stream_last :
    TransmissionOk (given .sinkReady lastToSend) ∧ StreamOk (given .sinkReady lastToSend) ∧
      ∃ t, step (given .sinkReady lastToSend) = .next t ∧ t.tx.outcome = .ok :=
  ⟨⟨fun _ => ⟨tinyTx, rfl, by decide, by decide, rfl, rfl, rfl, by decide⟩, fun h => (by cases h), fun h => (by cases h)⟩,
    fun _ => ⟨tinyTx, [], rfl, rfl, rfl, fun h => (by cases h)⟩, ⟨_, rfl, rfl⟩⟩

/-- The same transmission, all of its samples sent. -/
def allSent : State :=
  { State.reset with
    txSnap := some tinyTx
    txStream := streamSamples tinyTx (sending 1 1 false).tx.plan 4
    tx :=
      { (sending 1 1 false).tx with
        state := .idle, slot := 2, i := 0, phase := phaseAt tinyTx (sending 1 1 false).tx.plan 4, count := 4
        outcome := .ok } }

theorem witness_stream_sent : StreamOk allSent ∧ allSent.tx.outcome = .ok :=
  ⟨fun _ => ⟨tinyTx, [], rfl, rfl, rfl, fun _ => ⟨rfl, rfl⟩⟩, rfl⟩

theorem witness_amplitude : tinyTx.amp.toNat ≤ 32768 := by decide

theorem witness_envelope :
    (txSnapOf Settings.reset).nfi + (txSnapOf Settings.reset).nfo ≤ (txSnapOf Settings.reset).ne ∧
      (txSnapOf Settings.reset).ne ≤ 2205 ∧ (txSnapOf Settings.reset).nfi ≤ 220 ∧ 219 < (txSnapOf Settings.reset).nfi ∧
      1984 < (txSnapOf Settings.reset).ne - (txSnapOf Settings.reset).nfo ∧
      (txSnapOf Settings.reset).ne - (txSnapOf Settings.reset).nfo ≤ 1985 ∧ 2204 < (txSnapOf Settings.reset).ne := by
  decide

theorem witness_tones :
    0 ≤ 2 ^ (Settings.reset.ctrl.extractLsb' 4 3).toNat ∧ 2 ≤ 2 ^ (Settings.reset.ctrl.extractLsb' 4 3).toNat ∧
      2 * (Settings.reset.baseFreq.toNat + 2 * Settings.reset.freqSep.toNat) < Settings.reset.sampleRate.toNat := by
  simp [Settings.reset]

theorem witness_configuration :
    1 ≤ 1 ∧ 0 ≤ 1 ∧ 1 ≤ 1 ∧ 0 < 1 ∧ (∀ v ∈ ([0, 0] : List Sample), v = 0) := by simp

theorem witness_frame_bits : 0 < 5 + [0x41#8].length ∧ 5 < 5 + [0x41#8].length ∧ 0 < 8 ∧ 7 < 8 ∧
    4 ∣ [true, false, true, true].length := by decide

theorem witness_round_trip :
    256 ≤ 4096 ∧ [0x41#8].length ≤ 256 ∧ (({ tinyRx with ec := .basic } : RxSnap).ec = .basic → tinyRx.r % 2 = 1) ∧
      ({ tinyRegion 0 with
          cb := (ecEncode .basic 3 (bitsOf (frameBody .basic true false [0x41]))).map CodedBit.bit ++ [.erased] } : Region).cb =
        (ecEncode .basic 3 (bitsOf (frameBody .basic true false [0x41]))).map CodedBit.bit ++ [.erased] :=
  ⟨by decide, by decide, fun _ => by decide, rfl⟩

theorem witness_corrupted :
    4 ∣ [true, false, true, true].length ∧ [some (7 : Fin 8)].length ≤ [true, false, true, true].length / 4 ∧
      (0 : Fin 8) ≠ 7 ∧ [true, false, true, true].length + 4 ≤ 8 ∧ 4 ∣ 8 := by decide

theorem witness_votes :
    List.Forall₂ (votesFor 3) [true, false]
      [[.bit true, .erased, .bit true], [.bit false, .bit true, .bit false]] ∧
    [CodedBit.bit true, .erased, .bit false].length = 3 ∧
    [CodedBit.bit true, .erased, .bit false].count (.bit true) = [CodedBit.bit true, .erased, .bit false].count (.bit false) ∧
    CodedBit.erased ∈ [CodedBit.bit true, .erased] ∧ CodedBit.erased ∉ [CodedBit.bit true] ∧ [true, false].length < 3 :=
  ⟨.cons ⟨rfl, by decide⟩ (.cons ⟨rfl, by decide⟩ .nil), by decide⟩

theorem witness_header_decode :
    24 ≤ 24 ∧ 4 ∣ 24 ∧ (List.replicate 24 (CodedBit.bit true)).length = codedLen .none 0 24 ∧
      ecDecode .none 0 24 (List.replicate 24 (.bit true)) = .decoded (List.replicate 24 true) 0 ∧
      ecDecode .none 0 24 ((List.replicate 24 CodedBit.erased).take (codedLen .none 0 24)) = .unrecoverable 0 := by decide

theorem witness_bins :
    0 < 44100 ∧ 2 * 21000 < 44100 ∧ 2 ∣ 1024 ∧ Settings.reset.ctrl.extractLsb' 13 3 = 2 ∧
      Settings.reset.winOverlap = BitVec.ofNat 8 128 ∧
      ({ Settings.reset with winOverlap := 255 } : Settings).winOverlap = BitVec.ofNat 8 255 := by decide

theorem witness_rx_sample :
    (given (.sourceOffers 5) State.reset).inputs = .sourceOffers 5 :: [] ∧ State.reset.rx.state = .idle ∧
      listening.rx.state ≠ .idle ∧ listening.rxSnap = some tinyRx ∧ tinyRx.n ≤ listening.rx.n + 1 ∧
      (listening.rx.n + 1 - tinyRx.n) % tinyRx.h = 0 := by decide

theorem witness_rx_sample_no_frame :
    ¬(({ tinyRx with n := 2 } : RxSnap).n ≤ listening.rx.n + 1 ∧
      (listening.rx.n + 1 - ({ tinyRx with n := 2 } : RxSnap).n) % tinyRx.h = 0) := by decide

/-- The session of `demodulating j` at the frame of its next symbol. -/
def atSymbol (j : Nat) : State := { demodulating j with rx := { (demodulating j).rx with t := 39 + 3 * j } }

theorem witness_frames_dispatched :
    listening.rx.state = .scanning ∧ (atSymbol 0).rx.state = .locked ∧ (atSymbol 0).rx.reg = some (tinyRegion 0) ∧
      (atSymbol 0).rx.t = (tinyRegion 0).tf ∧ (demodulating 1).rx.state = .demod ∧
      (demodulating 1).rx.t ≠ (tinyRegion 1).tf ∧
      assembleRegion 256 tinyRx (demodRegion tinyRx (tinyRegion 0) [0, 0]) =
        .goOn (demodRegion tinyRx (tinyRegion 0) [0, 0]) ∧
      (assembleRegion 256 tinyRx (demodRegion tinyRx (tinyRegion 23) [0, 0])) =
        .finish (demodRegion tinyRx (tinyRegion 23) [0, 0]) .integrityFailed .ecUnrecoverable 0 none := by decide

theorem witness_steady_tone :
    tinyRx.off.length = 13 ∧ (∀ o ∈ tinyRx.off, (List.replicate 37 (7 : Word)).getD (0 + o) 0 = 7) := by decide

theorem witness_lock :
    tinyRx.k + 1 ≤ 37 ∧ (0 : Nat) ≤ 37 - tinyRx.k - 1 ∧ 0 < correlation tinyRx.off preambleEnergies 0 ∧
      36 * (tinyRx.minSig.toNat : Int) ≤ correlation tinyRx.off preambleEnergies 0 ∧
      correlation tinyRx.off preambleEnergies 1 ≤ correlation tinyRx.off preambleEnergies 0 ∧
      ¬(tinyRx.k + 1 ≤ 36) := by decide

theorem witness_no_lock :
    ¬(0 < correlation tinyRx.off [] 0) ∧
      ¬(36 * (({ tinyRx with minSig := 1001 } : RxSnap).minSig.toNat : Int) ≤ correlation tinyRx.off preambleEnergies 0) := by
  decide

theorem witness_snap_ok : snapOk tinyRx ∧ tinyRx.k + 1 ≤ 37 :=
  ⟨⟨by decide, by decide, by decide, by decide, by decide, by decide, by decide, by decide, by decide,
    fun h => (by cases h)⟩, by decide⟩

theorem witness_silent_session :
    SilentSession (given (.sourceOffers 0) listening) ∧ (∃ t, step (given (.sourceOffers 0) listening) = .next t) ∧
      ∃ t, exec .rxEnable State.reset = .next t ∧ t.rx.outcome ≠ .invalidSettings :=
  ⟨⟨rfl, rfl, fun _ h => (by cases h), fun _ h => (by cases h)⟩, ⟨_, rfl⟩,
    ⟨_, (by rfl : exec .rxEnable State.reset = .next (State.rxEnabled State.reset (rxSnapOf Settings.reset .none 4))),
      by decide⟩⟩

theorem witness_decision :
    2 ≤ [1000, 600].length ∧ decideSymbol 4 [1000, 600] = some 0 ∧ 0 < 4 ∧ 0 < 1 ∧ 1 < [500, 500].length ∧
      [500, 500].getD 0 0 = [500, 500].getD 1 0 ∧ (∀ l, l < [500, 500].length → [500, 500].getD l 0 ≤ 500) ∧
      0 < 1 ∧ [0, 0] ≠ ([] : List Nat) := by decide

theorem witness_end_region :
    State.reset.fifo.length < State.reset.params.resultDepth ∧
      (withResults 4 State.reset).params.resultDepth ≤ (withResults 4 State.reset).fifo.length := by decide

/-- A region of `tinyRx` whose received coded bits are those of some bytes. -/
def received (bytes : List Byte) (sn : RxSnap) : Region :=
  { tinyRegion 0 with cb := (ecEncode sn.ec sn.r (bitsOf bytes)).map .bit, j := 8 * bytes.length }

/-- Header bytes at level none: legal, of another version, of another level, and too long. -/
theorem witness_header_stage :
    (∀ h ∈ [[0x10, 0x00, 0x01], [0x20, 0x00, 0x01], [0x14, 0x00, 0x01], [0x10, 0x01, 0x01]],
      ecDecode .none 3 24 ((received h tinyRx).cb.take (codedLen .none 3 24)) = .decoded (bitsOf h) 0) ∧
    ecDecode .none 3 24 ([CodedBit.erased].take (codedLen .none 3 24)) = .unrecoverable 0 ∧
    (0x10 : Byte).extractLsb' 4 4 = 1 ∧ (0x10 : Byte).extractLsb' 2 2 = tinyRx.ec.code ∧
    (0x20 : Byte).extractLsb' 4 4 ≠ 1 ∧ (0x14 : Byte).extractLsb' 4 4 = 1 ∧
    (0x14 : Byte).extractLsb' 2 2 ≠ tinyRx.ec.code ∧ 256 < 256 * (0x01 : Byte).toNat + (0x01 : Byte).toNat ∧
    256 * (0x00 : Byte).toNat + (0x01 : Byte).toNat ≤ 256 := by decide

-- R143, byte by byte, on three bytes of zeros.
theorem test_crc_zeros :
    crcByte 0xFFFF 0 = 0xE1F0 ∧ crcByte 0xE1F0 0 = 0x1D0F ∧ crcByte 0x1D0F 0 = 0xCC9C := by decide

theorem test_crc_three_zeros : crc16 [0, 0, 0] = 0xCC9C := by
  simp only [crc16, List.foldl, test_crc_zeros]

/-- A body of a header of zeros and no payload, with its CRC by the rule (R143). -/
theorem witness_body_stage :
    [0x00#8, 0x00#8, 0x00#8].length = 3 ∧ ([] : List Byte).length = 0 ∧
      (crc16 ([0x00, 0x00, 0x00] ++ [])).toNat = 256 * (0xCC : Byte).toNat + (0x9C : Byte).toNat ∧
      (crc16 ([0x00, 0x00, 0x00] ++ [])).toNat ≠ 256 * (0xCD : Byte).toNat + (0x9C : Byte).toNat ∧
      0 ≤ tinyRx.errTol.toNat ∧ ({ tinyRx with errTol := 0 } : RxSnap).errTol.toNat < 1 := by
  rw [List.append_nil, test_crc_three_zeros]
  decide

/-- That body received, the same with another CRC, and an erasure. -/
theorem witness_body_decode :
    ecDecode .none 3 40 ((received [0x00, 0x00, 0x00, 0xCC, 0x9C] tinyRx).cb.take (codedLen .none 3 40)) =
      .decoded (bitsOf ([0x00, 0x00, 0x00] ++ [] ++ [0xCC, 0x9C])) 0 ∧
    ecDecode .none 3 40 ((received [0x00, 0x00, 0x00, 0xCD, 0x9C] tinyRx).cb.take (codedLen .none 3 40)) =
      .decoded (bitsOf ([0x00, 0x00, 0x00] ++ [] ++ [0xCD, 0x9C])) 0 ∧
    ecDecode .none 3 40 ([CodedBit.erased].take (codedLen .none 3 40)) = .unrecoverable 0 := by decide

theorem witness_body_correction :
    ∃ r : Region, ecDecode .basic 3 40 (r.cb.take (codedLen .basic 3 40)) =
      .decoded (bitsOf ([0x00, 0x00, 0x00] ++ [] ++ [0x00, 0x00])) 1 :=
  ⟨{ tinyRegion 0 with cb := .bit true :: List.replicate 119 (.bit false) }, by decide⟩

theorem witness_assembly :
    (tinyRegion 23).hdr = none ∧ 23 * tinyRx.b < codedLen tinyRx.ec tinyRx.r 24 ∧
      codedLen tinyRx.ec tinyRx.r 24 ≤ (received [0x10, 0x00, 0x01] tinyRx).j * tinyRx.b ∧
      headerStage 256 tinyRx (received [0x10, 0x00, 0x01] tinyRx) =
        .goOn { received [0x10, 0x00, 0x01] tinyRx with hdr := some { hflags := 0, len := 1 }, d := some 48 } ∧
      headerStage 256 tinyRx (received [0x20, 0x00, 0x01] tinyRx) =
        .finish { received [0x20, 0x00, 0x01] tinyRx with hdr := some { hflags := 0, len := 1 } } .frameMalformed
          .version 0 none := by decide

theorem witness_invariant :
    MemoriesOk State.reset ∧ OutcomesOk State.reset ∧ ReservedBitsOk State.reset ∧ ResultsOk (withResults 4 State.reset) ∧
      (∃ t, step State.reset = .next t) :=
  ⟨⟨rfl, fun _ h => (by cases h), rfl, fun _ h => (by cases h)⟩, ⟨rfl, rfl, fun _ h => (by cases h)⟩,
    ⟨by decide, by decide⟩,
    ⟨by decide, fun e h => by
      have he : e = oneByteResult := List.eq_of_mem_replicate h
      subst he
      exact ⟨fun h => absurd rfl h, fun _ => ⟨[0x41], rfl, rfl, by decide⟩⟩⟩, ⟨_, rfl⟩⟩

theorem witness_session : State.reset.params.legal = true ∧ SessionOk listening ∧ ResultsOk listening :=
  ⟨by decide,
    ⟨fun h => (by cases h), fun _ => ⟨tinyRx, rfl, witness_snap_ok.1, rfl, rfl, rfl, rfl, trivial⟩⟩,
    ⟨by decide, fun _ h => (by cases h)⟩⟩

end Sys2Proof.Tests
end

section
/-! PROOF. What assembly makes of a region under a session's snapshot (R72, R250 to R254): the region that goes on is
as `regionOk` says, and an OK result has the payload its header announces. -/

namespace Sys2Proof.Machine

open Sys2Proof Sys2Proof.Safety

/-- R250: whole bytes are read, eight bits each. -/
theorem bytesOf_length (l : List Bool) : (bytesOf l).length = l.length / 8 := by
  induction l using bytesOf.induct with
  | case1 a b c d e f g h rest ih =>
    simp only [bytesOf, List.length_cons, ih]
    omega
  | case2 l hshort =>
    rcases l with _ | ⟨a, _ | ⟨b, _ | ⟨c, _ | ⟨d, _ | ⟨e, _ | ⟨f, _ | ⟨g, _ | ⟨h, rest⟩⟩⟩⟩⟩⟩⟩⟩
    case cons.cons.cons.cons.cons.cons.cons.cons => exact absurd rfl (hshort a b c d e f g h rest)
    all_goals simp [bytesOf]

/-- What R72 says of a region but for its header: its start, its next frame at or after frame `t`, and its bits. -/
def regionPlaced (sn : RxSnap) (t : Nat) (r : Region) : Prop :=
  r.s0 = r.t0 * sn.h ∧ r.tf = symbolFrame sn r.t0 r.j ∧ t ≤ r.tf ∧ r.cb.length = r.j * sn.b ∧ r.erasures ≤ r.j

/-- The region waits for its header's coded bits (R250). -/
def headerAwaited (sn : RxSnap) (r : Region) : Prop :=
  r.hdr = none ∧ r.d = none ∧ r.j * sn.b < codedLen sn.ec sn.r 24

/-- The region's header is decoded, and its symbol count is set by it (R252). -/
def headerDecoded (maxLen : Nat) (sn : RxSnap) (r : Region) : Prop :=
  ∃ h, r.hdr = some h ∧ h.len ≤ maxLen ∧ r.d = some (cdiv (codedLen sn.ec sn.r (40 + 8 * h.len)) sn.b)

/-- A region in progress waits for its header's bits or for the symbols its header announces. -/
theorem regionOk_iff (maxLen : Nat) (sn : RxSnap) (t : Nat) (r : Region) :
    regionOk maxLen sn t r ↔ regionPlaced sn t r ∧
      (headerAwaited sn r ∨ headerDecoded maxLen sn r ∧ ∀ d, r.d = some d → r.j < d) := by
  unfold regionOk regionPlaced headerAwaited headerDecoded
  cases hh : r.hdr with
  | none => simp [and_assoc]
  | some h =>
    constructor
    · rintro ⟨h1, h2, h3, h4, h5, hlen, d, hd, rfl, hj⟩
      refine ⟨⟨h1, h2, h3, h4, h5⟩, .inr ⟨⟨h, rfl, hlen, hd⟩, fun d' hd' => ?_⟩⟩
      obtain rfl := Option.some.inj (hd.symm.trans hd')
      exact hj
    · rintro ⟨⟨h1, h2, h3, h4, h5⟩, ⟨hn, -⟩ | ⟨⟨h', hh', hlen, hd⟩, hj⟩⟩
      · cases hn
      · obtain rfl := Option.some.inj hh'
        exact ⟨h1, h2, h3, h4, h5, hlen, _, hd, rfl, hj _ hd⟩

/-- A region that waits beyond frame `t` waits for a frame from `t + 1` on. -/
theorem regionOk_succ {maxLen : Nat} {sn : RxSnap} {t : Nat} {r : Region} (h : regionOk maxLen sn t r)
    (ht : t ≠ r.tf) : regionOk maxLen sn (t + 1) r := by
  obtain ⟨h1, h2, hle, hrest⟩ := h
  exact ⟨h1, h2, by omega, hrest⟩

/-- The payload of an OK result: as long as the region's header says, and at most MAXLEN bytes (R251, R256). -/
def payloadFits (maxLen : Nat) (r : Region) (p : Option (List Byte)) : Prop :=
  ∃ h y, r.hdr = some h ∧ p = some y ∧ y.length = h.len ∧ h.len ≤ maxLen

/-- R259: the entry of a region has a payload exactly when it is OK. -/
theorem payloadOk_resultOf {maxLen : Nat} (sn : RxSnap) (r : Region) (code : OutcomeCode) (reason : Reason) (c : Nat)
    (p : Option (List Byte)) (hmax : maxLen ≤ 4096) (hp : code = .ok → payloadFits maxLen r p) :
    payloadOk maxLen (resultOf sn r code reason c p) := by
  refine ⟨fun hne => if_neg hne, fun hok => ?_⟩
  obtain ⟨h, y, hh, rfl, hy, hlen⟩ := hp hok
  have hsize : (resultOf sn r code reason c (some y)).len.toNat = h.len := by
    simp only [resultOf, hh, BitVec.toNat_ofNat]
    omega
  exact ⟨y, if_pos hok, by rw [hsize, hy], by omega⟩

/-- What assembly answers for a region whose next frame is `t` at the earliest: it goes on with the same symbols, or
it ends, with a payload where it ends OK. -/
def assemblyOk (maxLen : Nat) (sn : RxSnap) (t : Nat) (r : Region) : RegionStep → Prop
  | .goOn r1 => r1.j = r.j ∧ regionOk maxLen sn t r1
  | .finish r1 code _ _ p => code = .ok → payloadFits maxLen r1 p

/-- R253: once the body's coded bits are in, a body that checks has the payload its header announces. -/
theorem bodyCheck_payload {sn : RxSnap} {r q : Region} {len : Nat} {reason : Reason} {c : Nat}
    {p : Option (List Byte)} (hl : codedLen sn.ec sn.r (40 + 8 * len) ≤ r.cb.length)
    (h : bodyCheck sn r len = .finish q .ok reason c p) : ∃ y, p = some y ∧ y.length = len := by
  unfold bodyCheck at h
  split at h
  · cases h
  · rename_i fb c' hdec
    have hbits : fb.length = 40 + 8 * len :=
      ecDecode_length (by omega) (by rw [List.length_take]; omega) hdec
    simp only at h
    split at h
    · cases h
    · split at h
      · cases h
      · injection h with _ _ _ _ hp
        refine ⟨_, hp.symm, ?_⟩
        rw [List.length_take, List.length_drop, bytesOf_length, hbits]
        omega

/-- R250, R253: with its header decoded, a region waits for its last symbol, or ends. -/
theorem bodyStage_assemblyOk {maxLen : Nat} {sn : RxSnap} {t : Nat} {r : Region} (hb : 0 < sn.b)
    (hr : regionPlaced sn t r) (hhdr : headerDecoded maxLen sn r) : assemblyOk maxLen sn t r (bodyStage sn r) := by
  obtain ⟨h, hh, hlen, hd⟩ := hhdr
  simp only [bodyStage, hh, hd]
  split
  · rename_i hj
    refine ⟨rfl, (regionOk_iff ..).2 ⟨hr, .inr ⟨⟨h, hh, hlen, hd⟩, fun d hd' => ?_⟩⟩⟩
    obtain rfl := Option.some.inj (hd.symm.trans hd')
    exact hj
  · rename_i hj
    obtain ⟨-, -, -, hcb, -⟩ := hr
    have hbits : codedLen sn.ec sn.r (40 + 8 * h.len) ≤ r.cb.length := by
      rw [hcb, ← cdiv_le_iff _ _ _ hb]
      omega
    obtain ⟨code, reason, c, p, hbody, -⟩ := bodyCheck_cases sn r h.len
    rw [hbody]
    rintro rfl
    obtain ⟨y, hp, hy⟩ := bodyCheck_payload hbits hbody
    exact ⟨h, y, hh, hp, hy, hlen⟩

/-- R250: assembly of a region whose symbol is just decided. -/
theorem assembleRegion_assemblyOk {maxLen : Nat} {sn : RxSnap} {t : Nat} {r : Region} (hb : 0 < sn.b)
    (hr : regionPlaced sn t r) (hhdr : r.hdr = none ∧ r.d = none ∨ headerDecoded maxLen sn r) :
    assemblyOk maxLen sn t r (assembleRegion maxLen sn r) := by
  rcases hhdr with ⟨hh, hd⟩ | hdec
  · simp only [assembleRegion, hh]
    split
    · rename_i hlt
      exact ⟨rfl, (regionOk_iff ..).2 ⟨hr, .inl ⟨hh, hd, hlt⟩⟩⟩
    · rcases headerStage_cases maxLen sn r with ⟨hdr, hlen, hgo⟩ | ⟨q, code, reason, c, hcode, hfin⟩
      · rw [hgo]
        exact bodyStage_assemblyOk (r := { r with hdr := some hdr, d := some _ }) hb hr ⟨hdr, rfl, hlen, rfl⟩
      · rw [hfin]
        exact fun hok => absurd hok hcode
  · obtain ⟨h, hh, hrest⟩ := hdec
    simp only [assembleRegion, hh]
    exact bodyStage_assemblyOk hb hr ⟨h, hh, hrest⟩

/-- R234: a symbol decided at its frame `t` leaves a region whose next frame is still to come, for assembly. -/
theorem demodRegion_assemblyOk {maxLen : Nat} {sn : RxSnap} {r : Region} (m : List Nat) (hsn : snapOk sn)
    (h : regionOk maxLen sn r.tf r) :
    assemblyOk maxLen sn (r.tf + 1) (demodRegion sn r m) (assembleRegion maxLen sn (demodRegion sn r m)) := by
  obtain ⟨⟨hs0, htf, -, hcb, her⟩, hhdr⟩ := (regionOk_iff ..).1 h
  have hb : 0 < sn.b := by
    obtain ⟨-, -, -, -, -, hb, -⟩ := hsn
    exact hb
  have hnext := symbolFrame_lt_succ sn hsn r.t0 r.j
  have hplaced : regionPlaced sn (r.tf + 1) (demodRegion sn r m) := by
    refine ⟨hs0, rfl, ?_, ?_, ?_⟩
    · simp only [demodRegion]
      omega
    · simp only [demodRegion, List.length_append, symbolBits_length, hcb]
      ring
    · simp only [demodRegion]
      split <;> omega
  refine assembleRegion_assemblyOk hb hplaced ?_
  rcases hhdr with ⟨hn, hd, -⟩ | ⟨hdec, -⟩
  · exact .inl ⟨hn, hd⟩
  · exact .inr hdec

/-- R225: the region a lock at frame `t` opens starts at candidate `t - K - 1`, and its first symbol's frame is still
to come: the preamble's last slot is three hops long at least (R202). -/
theorem newRegion_regionOk {sn : RxSnap} (maxLen : Nat) {t : Nat} (c0 : Int) (hsn : snapOk sn) (ht : sn.k + 1 ≤ t) :
    regionOk maxLen sn (t + 1) (newRegion sn (t - sn.k - 1) c0) := by
  obtain ⟨-, hh, hhn, hfit, hns, hb, -, -, hk, hodd⟩ := hsn
  have hfirst : sn.k + 1 < cdiv (13 * sn.s) sn.h := by
    rw [lt_cdiv_iff _ _ _ hh, hk, slotFrame]
    have hlast := cdiv_mul_lt (12 * sn.s) sn.h hh
    rw [Nat.add_mul]
    omega
  have hheader : 0 < codedLen sn.ec sn.r 24 := by
    cases he : sn.ec with
    | none => simp [codedLen]
    | basic =>
      have := hodd he
      simp only [codedLen]
      omega
    | advanced => simp [codedLen]
  refine (regionOk_iff ..).2 ⟨⟨rfl, rfl, ?_, by simp [newRegion], by simp [newRegion]⟩, .inl ⟨rfl, rfl, ?_⟩⟩
  · simp only [newRegion, symbolFrame, Nat.add_zero]
    omega
  · simpa [newRegion] using hheader

end Sys2Proof.Machine
end

section
/-! PROOF. The receiver's invariant (R58, R71, R72, R207): every step keeps the shape of the session and the result
FIFO's. -/

namespace Sys2Proof.Machine

open Sys2Proof Sys2Proof.Safety

/-- R71, R207: the counts of a session that is not over agree with its samples and frames. -/
def sessionCounts (rx : RxEngine) (sn : RxSnap) : Prop :=
  snapOk sn ∧ rx.x.length = rx.n ∧ rx.hist.length = rx.t ∧ rx.t = framesAfter sn rx.n ∧ rx.outcome = .none

/-- R71: a region exists exactly while the engine is LOCKED, with no symbol yet, or in DEMOD, with some. -/
theorem sessionRunning_iff (maxLen : Nat) (rx : RxEngine) (sn : RxSnap) :
    sessionRunning maxLen rx sn ↔ sessionCounts rx sn ∧
      (rx.state = .scanning ∧ rx.reg = none ∨
       ∃ r, rx.reg = some r ∧ (rx.state = .locked ∧ r.j = 0 ∨ rx.state = .demod ∧ 0 < r.j) ∧
        rx.lockedAny = true ∧ regionOk maxLen sn rx.t r) := by
  unfold sessionRunning sessionCounts
  cases hst : rx.state <;> cases hreg : rx.reg <;> simp [and_assoc]

/-- The shape of the session and of the results, under legal parameters. -/
def ReceiverOk (s : State) : Prop := s.params.legal = true ∧ SessionOk s ∧ ResultsOk s

/-- A step that leaves the receiver's fields alone keeps the receiver's shape. -/
theorem ReceiverOk.frame {s t : State} (h : ReceiverOk s) (hparams : t.params = s.params) (hrx : t.rx = s.rx)
    (hsnap : t.rxSnap = s.rxSnap) (hfifo : t.fifo = s.fifo) : ReceiverOk t := by
  simpa only [ReceiverOk, SessionOk, ResultsOk, hparams, hrx, hsnap, hfifo] using h

/-- R71: an idle engine without a region has the shape of a session that is over. -/
theorem sessionOk_idle {s : State} (hst : s.rx.state = .idle) (hreg : s.rx.reg = none) : SessionOk s :=
  ⟨fun _ => hreg, fun hne => absurd hst hne⟩

theorem sessionOk_running {s : State} {sn : RxSnap} (hst : s.rx.state ≠ .idle) (hsn : s.rxSnap = some sn)
    (h : sessionRunning s.params.maxLen s.rx sn) : SessionOk s :=
  ⟨fun hi => absurd hi hst, fun _ => ⟨sn, hsn, h⟩⟩

theorem resultsOk_of_fifo_nil {s : State} (h : s.fifo = []) : ResultsOk s := by
  simp [ResultsOk, h]

theorem maxLen_le_of_legal {p : Params} (h : p.legal = true) : p.maxLen ≤ 4096 := by
  simp only [Params.legal, Bool.and_eq_true, decide_eq_true_eq] at h
  omega

/-- R58, R258: a region's end adds one result at most, and only where the FIFO has room. -/
theorem endRegion_resultsOk {s : State} (sn : RxSnap) (r : Region) (code : OutcomeCode) (reason : Reason) (c : Nat)
    (p : Option (List Byte)) (h : ResultsOk s) (hp : payloadOk s.params.maxLen (resultOf sn r code reason c p)) :
    ResultsOk (s.endRegion sn r code reason c p) := by
  obtain ⟨hlen, hall⟩ := h
  rw [ResultsOk, endRegion_fifo, State.endRegion_params]
  split
  · refine ⟨by rw [List.length_append, List.length_singleton]; omega, fun e he => ?_⟩
    rcases List.mem_append.1 he with he | he
    · exact hall e he
    · rw [List.mem_singleton.1 he]
      exact hp
  · exact ⟨hlen, hall⟩

/-- R256: a region's end returns the session to scanning. -/
theorem endRegion_receiverOk {s : State} {sn : RxSnap} (r : Region) (code : OutcomeCode) (reason : Reason) (c : Nat)
    (p : Option (List Byte)) (hl : s.params.legal = true) (hr : ResultsOk s) (hsn : s.rxSnap = some sn)
    (hc : sessionCounts s.rx sn) (hp : code = .ok → payloadFits s.params.maxLen r p) :
    ReceiverOk (s.endRegion sn r code reason c p) := by
  refine ⟨by simpa using hl, sessionOk_running (sn := sn) ?_ (by simpa using hsn) ?_,
    endRegion_resultsOk sn r code reason c p hr (payloadOk_resultOf sn r code reason c p (maxLen_le_of_legal hl) hp)⟩
  · simp [endRegion_rx]
  · rw [sessionRunning_iff, endRegion_rx]
    exact ⟨hc, .inl ⟨rfl, rfl⟩⟩

/-- R207: the state after a sample whose frame is due, recorded and not yet looked at. -/
def State.frameRecorded (s : State) (sn : RxSnap) (v : Sample) (mag : Nat → Word) : State :=
  ((s.takeSample v).beginFrame sn mag).recordEnergy sn mag

theorem State.frameRecorded_rx (s : State) (sn : RxSnap) (v : Sample) (mag : Nat → Word) :
    (s.frameRecorded sn v mag).rx =
      { s.rx with x := s.rx.x ++ [v], n := s.rx.n + 1, t := s.rx.t + 1,
                  hist := s.rx.hist ++ [mag (sn.bin.getD sn.m 0)] } := rfl

@[simp] theorem State.frameRecorded_params (s : State) (sn : RxSnap) (v : Sample) (mag : Nat → Word) :
    (s.frameRecorded sn v mag).params = s.params := State.beginFrame_params ..

@[simp] theorem State.frameRecorded_rxSnap (s : State) (sn : RxSnap) (v : Sample) (mag : Nat → Word) :
    (s.frameRecorded sn v mag).rxSnap = s.rxSnap := State.beginFrame_rxSnap ..

@[simp] theorem State.frameRecorded_fifo (s : State) (sn : RxSnap) (v : Sample) (mag : Nat → Word) :
    (s.frameRecorded sn v mag).fifo = s.fifo := State.beginFrame_fifo ..

/-- R205, R207: the counts after a sample that completes no frame. -/
theorem takeSample_counts {s : State} {sn : RxSnap} (v : Sample) (h : sessionCounts s.rx sn)
    (hdue : frameDue sn (s.rx.n + 1) = false) : sessionCounts (s.takeSample v).rx sn := by
  obtain ⟨hsn, hx, hhist, ht, ho⟩ := h
  refine ⟨hsn, ?_, hhist, ht.trans (framesAfter_succ_not_due sn s.rx.n hdue).symm, ho⟩
  simp [State.takeSample, hx]

/-- R205, R207: the counts after a sample that completes a frame. -/
theorem frameRecorded_counts {s : State} {sn : RxSnap} (v : Sample) (mag : Nat → Word) (h : sessionCounts s.rx sn)
    (hdue : frameDue sn (s.rx.n + 1) = true) : sessionCounts (s.frameRecorded sn v mag).rx sn := by
  obtain ⟨hsn, hx, hhist, ht, ho⟩ := h
  have hh : 0 < sn.h := by
    obtain ⟨-, hh, -⟩ := hsn
    exact hh
  rw [State.frameRecorded_rx]
  refine ⟨hsn, by simp [hx], by simp [hhist], ?_, ho⟩
  show s.rx.t + 1 = framesAfter sn (s.rx.n + 1)
  rw [framesAfter_succ_due sn s.rx.n hh hdue, ht]

/-- R234, R250: a symbol decided and assembled: the region goes on in DEMOD, or ends. -/
theorem demodulate_assemble_receiverOk {s : State} {sn : RxSnap} {r : Region} (mag : Nat → Word)
    (hl : s.params.legal = true) (hres : ResultsOk s) (hsn : s.rxSnap = some sn) (hc : sessionCounts s.rx sn)
    (hany : s.rx.lockedAny = true) (ht : s.rx.t = r.tf + 1) (hr : regionOk s.params.maxLen sn r.tf r) :
    ReceiverOk ((s.demodulate sn r mag).assemble sn (demodRegion sn r (toneMags sn mag))) := by
  have hok := demodRegion_assemblyOk (toneMags sn mag) hc.1 hr
  rcases assemble_cases (s.demodulate sn r mag) sn (demodRegion sn r (toneMags sn mag)) with
    ⟨r1, hgo, h⟩ | ⟨r1, code, reason, c, p, hfin, h⟩
  · rw [State.demodulate_params] at hgo
    rw [hgo] at hok
    obtain ⟨hj, hr1⟩ := hok
    rw [h]
    refine ⟨hl, sessionOk_running (sn := sn) (by simp [State.demodulate]) hsn ?_, hres⟩
    rw [sessionRunning_iff]
    refine ⟨hc, .inr ⟨r1, rfl, .inr ⟨rfl, ?_⟩, hany, ?_⟩⟩
    · rw [hj]
      exact Nat.succ_pos _
    · rw [← ht] at hr1
      exact hr1
  · rw [State.demodulate_params] at hfin
    rw [hfin] at hok
    rw [h]
    exact endRegion_receiverOk r1 code reason c p hl hres hsn hc hok

/-- R207, R220: an analysis frame keeps the receiver's shape, whether it finds nothing, locks, or decides a symbol. -/
theorem analyse_receiverOk {s : State} {sn : RxSnap} (v : Sample) (mag : Nat → Word) (hl : s.params.legal = true)
    (hres : ResultsOk s) (hsn : s.rxSnap = some sn) (hrun : sessionRunning s.params.maxLen s.rx sn)
    (hdue : frameDue sn (s.rx.n + 1) = true) : ReceiverOk ((s.takeSample v).analyse sn mag) := by
  obtain ⟨hc, hshape⟩ := (sessionRunning_iff ..).1 hrun
  have hc' := frameRecorded_counts v mag hc hdue
  have hl' : (s.frameRecorded sn v mag).params.legal = true := by simpa using hl
  have hsn' : (s.frameRecorded sn v mag).rxSnap = some sn := by simpa using hsn
  have hres' : ResultsOk (s.frameRecorded sn v mag) := by simpa [ResultsOk] using hres
  rw [analyse_eq]
  rcases frame_cases ((s.takeSample v).beginFrame sn mag) sn (s.takeSample v).rx.t mag with
    ⟨-, hwait, h⟩ | ⟨-, hk, -, -, h⟩ | ⟨r, hst, hreg, ht, h⟩ <;> rw [h]
  · refine ⟨hl', sessionOk_running (sn := sn) ?_ hsn' ((sessionRunning_iff ..).2 ⟨hc', ?_⟩), hres'⟩
    · rcases hshape with ⟨hst, -⟩ | ⟨r, -, ⟨hst, -⟩ | ⟨hst, -⟩, -⟩ <;> exact fun hi => by cases hst.symm.trans hi
    · rcases hshape with hscan | ⟨r, hreg, hst, hany, hr⟩
      · exact .inl hscan
      · refine .inr ⟨r, hreg, hst, hany, ?_⟩
        have hne : s.rx.t ≠ r.tf := hwait (hst.imp And.left And.left) r hreg
        show regionOk (s.frameRecorded sn v mag).params.maxLen sn (s.rx.t + 1) r
        rw [State.frameRecorded_params]
        exact regionOk_succ hr hne
  · refine ⟨hl', sessionOk_running (sn := sn) (by simp [State.lock]) hsn' ((sessionRunning_iff ..).2 ⟨hc', ?_⟩), hres'⟩
    refine .inr ⟨_, rfl, .inl ⟨rfl, rfl⟩, rfl, newRegion_regionOk _ _ hc.1 hk⟩
  · rcases hshape with ⟨-, hnone⟩ | ⟨r', hreg', -, hany, hr⟩
    · cases hnone.symm.trans hreg
    · obtain rfl := Option.some.inj (hreg'.symm.trans hreg)
      have ht : s.rx.t = r'.tf := ht
      refine demodulate_assemble_receiverOk mag hl' hres' hsn' hc' hany (congrArg (· + 1) ht) ?_
      show regionOk (s.frameRecorded sn v mag).params.maxLen sn r'.tf r'
      rw [State.frameRecorded_params, ← ht]
      exact hr

/-- R207: RX-SAMPLE keeps the receiver's shape. -/
theorem rxSample_receiverOk {s : State} (v : Sample) (h : ReceiverOk s) : ReceiverOk (s.rxSample v) := by
  rcases rxSample_cases s v with ⟨he, -⟩ | ⟨sn, hne, hsn, hcase⟩
  · rwa [he]
  · obtain ⟨hl, ⟨-, hsession⟩, hres⟩ := h
    obtain ⟨sn', hsn', hrun⟩ := hsession hne
    obtain rfl := Option.some.inj (hsn'.symm.trans hsn)
    rcases hcase with ⟨hdue, he⟩ | ⟨hdue, he⟩ <;> rw [he]
    · obtain ⟨hc, hshape⟩ := (sessionRunning_iff ..).1 hrun
      exact ⟨hl, sessionOk_running hne hsn ((sessionRunning_iff ..).2 ⟨takeSample_counts v hc hdue, hshape⟩), hres⟩
    · exact analyse_receiverOk v _ hl hres hsn hrun hdue

/-- R260: the session's region, if any, ends with a result, and every result stands. -/
theorem truncateRegion_resultsOk {s : State} (hl : s.params.legal = true) (h : ResultsOk s) :
    ResultsOk s.truncateRegion := by
  rcases truncateRegion_cases s with ⟨sn, r, -, -, -, he⟩ | ⟨he, -⟩ <;> rw [he]
  · exact endRegion_resultsOk _ _ _ _ _ _ h
      (payloadOk_resultOf _ _ _ _ _ _ (maxLen_le_of_legal hl) (fun hok => by cases hok))
  · exact h

/-- R201: a session starts with its counts at zero and no region. -/
theorem rxEnabled_receiverOk {s : State} {ec : EcLevel} (margin : Nat) (h : ReceiverOk s)
    (hi : anyIssue (issuesRx s.params s.settings) = false) (hec : ecLevelOf s.settings.ecField = some ec) :
    ReceiverOk (s.rxEnabled (rxSnapOf s.settings ec margin)) := by
  obtain ⟨hl, -, hres⟩ := h
  have hsn := snapOk_of_noIssue s.params s.settings ec margin hi hec
  have hstart : framesAfter (rxSnapOf s.settings ec margin) 0 = 0 := if_pos hsn.1
  exact ⟨hl, sessionOk_running (by simp [State.rxEnabled, RxEngine.session]) rfl
    ((sessionRunning_iff ..).2 ⟨⟨hsn, rfl, rfl, hstart.symm, rfl⟩, .inl ⟨rfl, rfl⟩⟩), hres⟩

/-- Every command keeps the receiver's shape (R102). -/
theorem exec_receiverOk (i : Instr) (s t : State) (hs : ReceiverOk s) (h : exec i s = .next t) : ReceiverOk t := by
  refine exec_keeps (P := ReceiverOk)
    (refuse := fun s hs => hs.frame rfl rfl rfl rfl)
    (issues := fun s v hs => hs.frame rfl rfl rfl rfl)
    (txFailed := fun s c _ _ hs => hs.frame rfl rfl rfl rfl)
    (txStarted := fun s ec _ _ _ hs => hs.frame rfl rfl rfl rfl)
    (txAbort := fun s _ hs => hs.frame rfl rfl rfl rfl)
    (rxFailed := ?failed)
    (rxEnabled := fun s ec margin hi hec hs => rxEnabled_receiverOk margin hs hi hec)
    (rxFinish := ?finish)
    (rxAbort := fun s _ ⟨hl, _, hres⟩ => ⟨hl, sessionOk_idle rfl rfl, hres⟩)
    (pop := ?pop)
    (softReset := ?softReset) i s t hs h
  case failed =>
    rintro s hidle ⟨hl, ⟨hreg, -⟩, hres⟩
    exact ⟨hl, sessionOk_idle hidle (hreg hidle), hres⟩
  case finish =>
    rintro s - ⟨hl, -, hres⟩
    exact ⟨by simpa using hl, sessionOk_idle rfl rfl, truncateRegion_resultsOk hl hres⟩
  case pop =>
    rintro s e rest hf ⟨hl, hses, hlen, hall⟩
    rw [hf] at hlen hall
    exact ⟨hl, hses, Nat.le_of_succ_le hlen, fun e' he' => hall e' (List.mem_cons_of_mem e he')⟩
  case softReset =>
    rintro s t h ⟨hl, -, -⟩
    injection h with h
    subst h
    exact ⟨hl, sessionOk_idle rfl rfl, resultsOk_of_fifo_nil rfl⟩

/-- Settles O59: the receiver's shape is an invariant of every agent's step. -/
theorem stepKeepsTheSessionAndResults : Obligations.StepKeepsTheSessionAndResults := by
  intro s t hl hses hres h
  refine (step_keeps (P := ReceiverOk)
    (take := fun s hs => hs.frame rfl rfl rfl rfl)
    (answer := fun s p hs => hs.frame rfl rfl rfl rfl)
    (refuse := fun s hs => hs.frame rfl rfl rfl rfl)
    (command := fun i s t hs h => exec_receiverOk i s t hs h)
    (write := fun s off v hs => hs.frame (by simp) (by simp) (by simp) (by simp))
    (emit := fun s _ hs => hs.frame (by simp) (by simp) (by simp) (by simp))
    (cancel := fun s _ hs => hs.frame rfl rfl rfl rfl)
    (sample := fun s v hs => rxSample_receiverOk v hs)
    (reset := fun s ⟨hl, _, _⟩ => ⟨hl, sessionOk_idle rfl rfl, resultsOk_of_fifo_nil rfl⟩)
    (release := fun s hs => hs.frame rfl rfl rfl rfl) h ⟨hl, hses, hres⟩).2

end Sys2Proof.Machine
end

section
/-! PROOF. The form of the memories (R57, log 3): the TX payload RAM is written byte by byte below MAXLEN, the MAG
buffer frame by frame, and every other step leaves both alone. -/

namespace Sys2Proof.Machine

open Sys2Proof Sys2Proof.Safety

/-- A step that leaves both memories alone keeps their form. -/
theorem memoriesOk_frame {s t : State} (h : MemoriesOk s) (hparams : t.params = s.params) (hram : t.txRam = s.txRam)
    (hmag : t.mag = s.mag) : MemoriesOk t := by
  simpa only [MemoriesOk, hparams, hram, hmag] using h

/-- R85: a byte write keeps the form: only bytes below MAXLEN are listed. -/
theorem setTxByte_memoriesOk {s : State} (k : Nat) (v : Byte) (h : MemoriesOk s) : MemoriesOk (s.setTxByte k v) := by
  obtain ⟨hwf, hlt, hmag⟩ := h
  obtain ⟨hwf', hlt'⟩ := State.setTxByte_ok s k v ⟨hwf, hlt⟩
  exact ⟨hwf', by simpa using hlt', by simpa using hmag⟩

/-- R210: a frame's start leaves the MAG buffer alone or stores the frame's image. -/
theorem State.beginFrame_mag_cases (s : State) (sn : RxSnap) (mag : Nat → Word) :
    (s.beginFrame sn mag).mag = s.mag ∨ (s.beginFrame sn mag).mag = magImage sn.n mag := by
  obtain ⟨m, hframe, hm⟩ := State.beginFrame_frame s sn mag
  rw [hframe]
  split at hm
  · exact .inl hm
  · exact .inr hm

/-- R207, R210: RX-SAMPLE leaves the MAG buffer alone or stores a whole frame's image. -/
theorem rxSample_mag_cases (s : State) (v : Sample) :
    (s.rxSample v).mag = s.mag ∨ ∃ n mag, (s.rxSample v).mag = magImage n mag := by
  rcases rxSample_cases s v with ⟨h, -⟩ | ⟨sn, -, -, ⟨-, h⟩ | ⟨-, h⟩⟩ <;> rw [h]
  · exact .inl rfl
  · exact .inl rfl
  · rw [analyse_eq, State.frame_mag]
    exact (State.beginFrame_mag_cases ..).imp_right fun hm => ⟨_, _, hm⟩

/-- R210: RX-SAMPLE keeps the form: a frame's image lists words 0 to 2048 in order. -/
theorem rxSample_memoriesOk {s : State} (v : Sample) (h : MemoriesOk s) : MemoriesOk (s.rxSample v) := by
  rcases rxSample_mag_cases s v with hmag | ⟨n, mag, hmag⟩
  · exact memoriesOk_frame h (by simp) (by simp) hmag
  · obtain ⟨hwf, hlt, -⟩ := h
    refine ⟨by simpa using hwf, by simpa using hlt, ?_, ?_⟩ <;> rw [hmag]
    · exact magImage_wf n mag
    · exact mem_magImage n mag

/-- No command writes a memory (R102). -/
theorem exec_memoriesOk (i : Instr) (s t : State) (hs : MemoriesOk s) (h : exec i s = .next t) : MemoriesOk t :=
  exec_keeps (P := MemoriesOk)
    (refuse := fun s hs => memoriesOk_frame hs rfl rfl rfl)
    (issues := fun s v hs => memoriesOk_frame hs rfl rfl rfl)
    (txFailed := fun s c _ _ hs => memoriesOk_frame hs rfl rfl rfl)
    (txStarted := fun s ec _ _ _ hs => memoriesOk_frame hs rfl rfl rfl)
    (txAbort := fun s _ hs => memoriesOk_frame hs rfl rfl rfl)
    (rxFailed := fun s _ hs => memoriesOk_frame hs rfl rfl rfl)
    (rxEnabled := fun s ec margin _ _ hs => memoriesOk_frame hs rfl rfl rfl)
    (rxFinish := fun s _ hs => memoriesOk_frame hs (by simp) (by simp) (by simp))
    (rxAbort := fun s _ hs => memoriesOk_frame hs rfl rfl rfl)
    (pop := fun s e rest _ hs => memoriesOk_frame hs rfl rfl rfl)
    (softReset := fun s t h hs => by
      injection h with h
      subst h
      exact memoriesOk_frame hs rfl rfl rfl)
    i s t hs h

/-- Settles O57: only a byte write, RX-SAMPLE and reset touch a memory, and each keeps the form. -/
theorem stepKeepsTheMemoryForm : Obligations.StepKeepsTheMemoryForm := by
  intro s t hs h
  exact step_keeps (P := MemoriesOk)
    (take := fun s hs => memoriesOk_frame hs rfl rfl rfl)
    (answer := fun s p hs => memoriesOk_frame hs rfl rfl rfl)
    (refuse := fun s hs => memoriesOk_frame hs rfl rfl rfl)
    (command := exec_memoriesOk)
    (write := portWrite_keeps
      (status := fun s v hs => memoriesOk_frame hs rfl rfl rfl)
      (irqStatus := fun s v hs => memoriesOk_frame hs rfl rfl rfl)
      (irqEnable := fun s v hs => memoriesOk_frame hs rfl rfl rfl)
      (setting := fun s r v hs => memoriesOk_frame hs rfl rfl rfl)
      (ramByte := fun s k v hs => setTxByte_memoriesOk k v hs))
    (emit := fun s _ hs => memoriesOk_frame hs (by simp) (by simp) (by simp))
    (cancel := fun s _ hs => memoriesOk_frame hs rfl rfl rfl)
    (sample := fun s v hs => rxSample_memoriesOk v hs)
    (reset := fun s _ => by simp [MemoriesOk])
    (release := fun s hs => memoriesOk_frame hs rfl rfl rfl) h hs

end Sys2Proof.Machine
end

section
/-! PROOF. Register writes by access type (R21, R28, R85): which field of the settings a write reaches, what every
register reads afterwards, and which steps reach a setting at all. -/

namespace Sys2Proof.Machine

open Sys2Proof Sys2Proof.Safety

/-! One lemma per field: what a register write leaves in it (R21, R85). -/

@[simp] theorem Settings.write_ctrl (st : Settings) (r : Reg) (v : Word) :
    (st.write r v).ctrl = if r = .ctrl then v &&& ctrlMask else st.ctrl := by
  cases r <;> rfl

@[simp] theorem Settings.write_sampleRate (st : Settings) (r : Reg) (v : Word) :
    (st.write r v).sampleRate = if r = .sampleRate then v else st.sampleRate := by
  cases r <;> rfl

@[simp] theorem Settings.write_baseFreq (st : Settings) (r : Reg) (v : Word) :
    (st.write r v).baseFreq = if r = .baseFreq then v else st.baseFreq := by
  cases r <;> rfl

@[simp] theorem Settings.write_freqSep (st : Settings) (r : Reg) (v : Word) :
    (st.write r v).freqSep = if r = .freqSep then v else st.freqSep := by
  cases r <;> rfl

@[simp] theorem Settings.write_bitDurMs (st : Settings) (r : Reg) (v : Word) :
    (st.write r v).bitDurMs = if r = .bitDurMs then v.setWidth 16 else st.bitDurMs := by
  cases r <;> rfl

@[simp] theorem Settings.write_guardMs (st : Settings) (r : Reg) (v : Word) :
    (st.write r v).guardMs = if r = .guardMs then v.setWidth 16 else st.guardMs := by
  cases r <;> rfl

@[simp] theorem Settings.write_fadeInMs (st : Settings) (r : Reg) (v : Word) :
    (st.write r v).fadeInMs = if r = .fadeInMs then v.setWidth 16 else st.fadeInMs := by
  cases r <;> rfl

@[simp] theorem Settings.write_fadeOutMs (st : Settings) (r : Reg) (v : Word) :
    (st.write r v).fadeOutMs = if r = .fadeOutMs then v.setWidth 16 else st.fadeOutMs := by
  cases r <;> rfl

@[simp] theorem Settings.write_amplitude (st : Settings) (r : Reg) (v : Word) :
    (st.write r v).amplitude = if r = .amplitude then v.setWidth 16 else st.amplitude := by
  cases r <;> rfl

@[simp] theorem Settings.write_redundancy (st : Settings) (r : Reg) (v : Word) :
    (st.write r v).redundancy = if r = .redundancy then v.setWidth 4 else st.redundancy := by
  cases r <;> rfl

@[simp] theorem Settings.write_txLen (st : Settings) (r : Reg) (v : Word) :
    (st.write r v).txLen = if r = .txLen then v.setWidth 16 else st.txLen := by
  cases r <;> rfl

@[simp] theorem Settings.write_txMaxSamples (st : Settings) (r : Reg) (v : Word) :
    (st.write r v).txMaxSamples = if r = .txMaxSamples then v else st.txMaxSamples := by
  cases r <;> rfl

@[simp] theorem Settings.write_winOverlap (st : Settings) (r : Reg) (v : Word) :
    (st.write r v).winOverlap = if r = .winOverlap then v.setWidth 8 else st.winOverlap := by
  cases r <;> rfl

@[simp] theorem Settings.write_minSignal (st : Settings) (r : Reg) (v : Word) :
    (st.write r v).minSignal = if r = .minSignal then v else st.minSignal := by
  cases r <;> rfl

@[simp] theorem Settings.write_errTol (st : Settings) (r : Reg) (v : Word) :
    (st.write r v).errTol = if r = .errTol then v.setWidth 16 else st.errTol := by
  cases r <;> rfl

@[simp] theorem Settings.write_maxRetries (st : Settings) (r : Reg) (v : Word) :
    (st.write r v).maxRetries = if r = .maxRetries then v.setWidth 8 else st.maxRetries := by
  cases r <;> rfl

@[simp] theorem Settings.write_freqHintLo (st : Settings) (r : Reg) (v : Word) :
    (st.write r v).freqHintLo = if r = .freqHintLo then v else st.freqHintLo := by
  cases r <;> rfl

@[simp] theorem Settings.write_freqHintHi (st : Settings) (r : Reg) (v : Word) :
    (st.write r v).freqHintHi = if r = .freqHintHi then v else st.freqHintHi := by
  cases r <;> rfl

/-- R21: a register outside the RW registers is no setting. -/
theorem Settings.write_of_not_rw (st : Settings) {r : Reg} (v : Word) (h : r ∉ rwMasks.map Prod.fst) :
    st.write r v = st := by
  cases r
  case ctrl | sampleRate | baseFreq | freqSep | bitDurMs | guardMs | fadeInMs | fadeOutMs | amplitude | redundancy |
      txLen | txMaxSamples | winOverlap | minSignal | errTol | maxRetries | freqHintLo | freqHintHi =>
    simp [rwMasks] at h
  all_goals rfl

/-! What the registers read after a write to a RW register (R21, R86). -/

/-- A setting reads as before after a write to another register. -/
theorem readReg_settings_write_other (s : State) {r r' : Reg} (v : Word) (h : r' ≠ r) :
    ({ s with settings := s.settings.write r v } : State).readReg r' = s.readReg r' := by
  cases r'
  case ctrl | sampleRate | baseFreq | freqSep | bitDurMs | guardMs | fadeInMs | fadeOutMs | amplitude | redundancy |
      txLen | txMaxSamples | winOverlap | minSignal | errTol | maxRetries | freqHintLo | freqHintHi =>
    simp [State.readReg, h.symm]
  all_goals rfl

/-- Only IRQ_ENABLE reads IRQ_ENABLE. -/
theorem readReg_irqEnable_write_other (s : State) {r' : Reg} (v : BitVec 6) (h : r' ≠ .irqEnable) :
    ({ s with irqEnable := v } : State).readReg r' = s.readReg r' := by
  cases r'
  case irqEnable => exact absurd rfl h
  all_goals rfl

/-- A narrow field shows its own bits of the word written. -/
theorem setWidth_setWidth_eq_and (v : Word) (w : Nat) (h : w ≤ 32) :
    (v.setWidth w).setWidth 32 = v &&& BitVec.ofNat 32 (2 ^ w - 1) := by
  apply BitVec.eq_of_toNat_eq
  have hw : 2 ^ w ≤ 2 ^ 32 := Nat.pow_le_pow_right (by omega) h
  have hv : v.toNat % 2 ^ w < 2 ^ w := Nat.mod_lt _ (by positivity)
  rw [BitVec.toNat_and, BitVec.toNat_ofNat, Nat.mod_eq_of_lt (by omega : 2 ^ w - 1 < 2 ^ 32),
    Nat.and_two_pow_sub_one_eq_mod, BitVec.toNat_setWidth, BitVec.toNat_setWidth, Nat.mod_eq_of_lt (by omega)]

theorem and_fullMask (v : Word) : v &&& 0xFFFFFFFF#32 = v := by
  simpa using (setWidth_setWidth_eq_and v 32 le_rfl).symm

/-- R21: a RW register reads back its defined bits of the word written, whatever their value. -/
theorem readReg_writeReg_same (s : State) {r : Reg} {mask : Word} (v : Word) (h : (r, mask) ∈ rwMasks) :
    (s.writeReg r v).readReg r = v &&& mask := by
  unfold rwMasks at h
  fin_cases h
  all_goals simp [State.writeReg, State.readReg, setWidth_setWidth_eq_and, and_fullMask, ctrlMask]

/-- R21, R85: a write to a RW register writes IRQ_ENABLE or a setting. -/
theorem writeReg_rw_cases (s : State) {r : Reg} (v : Word) (h : r ∈ rwMasks.map Prod.fst) :
    (r = .irqEnable ∧ s.writeReg r v = { s with irqEnable := v.setWidth 6 }) ∨
    s.writeReg r v = { s with settings := s.settings.write r v } := by
  rcases writeReg_cases s r v with ⟨rfl, -⟩ | ⟨rfl, -⟩ | hie | hset
  · exact absurd h (by decide)
  · exact absurd h (by decide)
  · exact .inl hie
  · exact .inr hset

/-- R21: a register that is neither RW nor W1C is unchanged by a write. -/
theorem writeReg_of_readOnly (s : State) {r : Reg} (v : Word) (h : r ∉ rwMasks.map Prod.fst) (hstatus : r ≠ .status)
    (hirq : r ≠ .irqStatus) : s.writeReg r v = s := by
  rcases writeReg_cases s r v with ⟨hr, -⟩ | ⟨hr, -⟩ | ⟨rfl, -⟩ | hset
  · exact absurd hr hstatus
  · exact absurd hr hirq
  · exact absurd (by decide) h
  · rw [hset, Settings.write_of_not_rw _ _ h]

/-- R21: a write to a RW register changes the settings and IRQ_ENABLE at most. -/
theorem writeReg_rw_frame (s : State) {r : Reg} (v : Word) (h : r ∈ rwMasks.map Prod.fst) :
    s.writeReg r v = { s with settings := (s.writeReg r v).settings, irqEnable := (s.writeReg r v).irqEnable } := by
  rcases writeReg_rw_cases s v h with ⟨-, hw⟩ | hw <;> rw [hw]

/-- R21: a write to a RW register changes what no other register reads. -/
theorem readReg_writeReg_other (s : State) {r r' : Reg} (v : Word) (h : r ∈ rwMasks.map Prod.fst) (hne : r' ≠ r) :
    (s.writeReg r v).readReg r' = s.readReg r' := by
  rcases writeReg_rw_cases s v h with ⟨rfl, hw⟩ | hw <;> rw [hw]
  · exact readReg_irqEnable_write_other s _ hne
  · exact readReg_settings_write_other s v hne

/-- R28: a 1 clears its W1C bit of STATUS, a 0 leaves it, and nothing else of STATUS is written. -/
theorem writeStatus_eq (s : State) (v : Word) :
    s.writeStatus v =
      { s with
        cmdErr := if v.getLsbD 16 = true then false else s.cmdErr
        resOvf := if v.getLsbD 17 = true then false else s.resOvf } := by
  unfold State.writeStatus
  cases v.getLsbD 16 <;> cases v.getLsbD 17 <;> simp

/-- R29: a 1 clears its event bit, a 0 leaves it. -/
theorem getLsbD_writeIrqStatus (s : State) (v : Word) {k : Nat} (hk : k < 6) :
    (s.writeIrqStatus v).irqStatus.getLsbD k = if v.getLsbD k = true then false else s.irqStatus.getLsbD k := by
  simp only [State.writeIrqStatus, BitVec.getLsbD_and, BitVec.getLsbD_not, BitVec.getLsbD_setWidth, hk, decide_true,
    Bool.true_and]
  cases v.getLsbD k <;> simp

/-- Settles O10: register by register, by what a write to a RW, RO or W1C register leaves. -/
theorem registerWritesFollowTheirAccessType : Obligations.RegisterWritesFollowTheirAccessType := by
  refine ⟨fun s o r mask v hreg hrw => ?_, fun s o r v hreg hrw _ hstatus hirq => ?_, fun s v => ?_, fun s v => ?_⟩
  · have hmem : r ∈ rwMasks.map Prod.fst := List.mem_map.2 ⟨(r, mask), hrw, rfl⟩
    rw [State.portWrite_reg s hreg, State.portRead_reg _ hreg]
    exact ⟨readReg_writeReg_same s v hrw, writeReg_rw_frame s v hmem, fun r' hne => readReg_writeReg_other s v hmem hne⟩
  · rw [State.portWrite_reg s hreg, writeReg_of_readOnly s v hrw hstatus hirq]
  · have hw : s.portWrite 0x00C v = s.writeStatus v := s.portWrite_reg (o := 0x00C) (r := .status) (by decide) v
    rw [hw, writeStatus_eq]
  · have hw : s.portWrite 0x010 v = s.writeIrqStatus v := s.portWrite_reg (o := 0x010) (r := .irqStatus) (by decide) v
    rw [hw]
    exact ⟨rfl, fun k hk => getLsbD_writeIrqStatus s v hk⟩

end Sys2Proof.Machine
end

section
/-! PROOF. Which steps change a setting or IRQ_ENABLE (R21, R85, R121, R122, R129, R300). -/

namespace Sys2Proof.Machine

open Sys2Proof Sys2Proof.Safety

/-- The implementation's parameters, the settings and IRQ_ENABLE are those of the state `s`. -/
def sameSetup (s t : State) : Prop :=
  t.params = s.params ∧ t.settings = s.settings ∧ t.irqEnable = s.irqEnable

/-- R85: a port write changes no setup, or it reaches a RW register. -/
theorem portWrite_setup_cases (s : State) (off : Offset) (v : Word) :
    sameSetup s (s.portWrite off v) ∨ ∃ r ∈ rwMasks.map Prod.fst, targetOf off = .reg r := by
  rcases portWrite_cases s off v with ⟨r, hr, h⟩ | ⟨w, -, h⟩ | h <;> rw [h]
  · by_cases hrw : r ∈ rwMasks.map Prod.fst
    · exact .inr ⟨r, hrw, hr⟩
    · left
      rcases writeReg_cases s r v with ⟨-, hw⟩ | ⟨-, hw⟩ | ⟨rfl, -⟩ | hw
      · rw [hw]
        exact ⟨rfl, rfl, rfl⟩
      · rw [hw]
        exact ⟨rfl, rfl, rfl⟩
      · exact absurd (by decide) hrw
      · rw [hw, Settings.write_of_not_rw _ _ hrw]
        exact ⟨rfl, rfl, rfl⟩
  · exact .inl ⟨by simp, by simp, by simp⟩
  · exact .inl ⟨rfl, rfl, rfl⟩

/-- No command changes a setting, IRQ_ENABLE or a parameter (R102, R121, R122, R129). -/
theorem exec_sameSetup {i : Instr} {s t : State} (h : exec i s = .next t) : sameSetup s t :=
  exec_keeps (P := sameSetup s)
    (refuse := fun _ hs => hs)
    (issues := fun _ _ hs => hs)
    (txFailed := fun _ _ _ _ hs => hs)
    (txStarted := fun _ _ _ _ _ hs => hs)
    (txAbort := fun _ _ hs => hs)
    (rxFailed := fun _ _ hs => hs)
    (rxEnabled := fun _ _ _ _ _ hs => hs)
    (rxFinish := fun u _ hs => by simpa [sameSetup] using hs)
    (rxAbort := fun _ _ hs => hs)
    (pop := fun _ _ _ _ hs => hs)
    (softReset := fun u t h hs => by
      injection h with h
      subst h
      exact hs)
    i s t ⟨rfl, rfl, rfl⟩ h

/-- A step changes no setup, or it is the reset step or a HOST write to a RW register. -/
theorem step_setup_cases {s t : State} (h : step s = .next t) :
    sameSetup s t ∨
    t.params = s.params ∧ s.rstAsserted = false ∧ (s.inputs.head? = some .resetAssert ∨
      ∃ o r v, (o, r) ∈ regMap ∧ r ∈ rwMasks.map Prod.fst ∧
        s.inputs.head? = some (.hostWrite (BitVec.ofNat 15 o) 4 v)) := by
  rcases step_cases h with rfl | ⟨-, rfl⟩ | ⟨hrst, ⟨-, -, rfl⟩ | ⟨p, rfl⟩ | ⟨w, -, -, rfl⟩ | ⟨w, i, -, -, he⟩ |
    ⟨off, v, hin, -, -, rfl⟩ | ⟨-, -, rfl⟩ | ⟨v, -, rfl⟩ | ⟨hin, rfl⟩⟩
  · exact .inl ⟨rfl, rfl, rfl⟩
  · exact .inl ⟨rfl, rfl, rfl⟩
  · exact .inl ⟨rfl, rfl, rfl⟩
  · exact .inl ⟨rfl, rfl, rfl⟩
  · exact .inl ⟨rfl, rfl, rfl⟩
  · exact .inl (exec_sameSetup (s := { s.takeInput with port := .written }) he)
  · rcases portWrite_setup_cases { s.takeInput with port := .written } off v with hsame | ⟨r, hrw, htarget⟩
    · exact .inl hsame
    · refine .inr ⟨State.portWrite_params .., hrst, .inr ⟨off.toNat, r, v, mem_regMap_of_targetOf htarget, hrw, ?_⟩⟩
      rwa [BitVec.ofNat_toNat, BitVec.setWidth_eq]
  · exact .inl ⟨by simp, by simp, by simp⟩
  · exact .inl ⟨by simp, by simp, by simp⟩
  · exact .inr ⟨rfl, hrst, .inl hin⟩

/-- Settles O14: a step that changes a setting or IRQ_ENABLE is one of the two that `step_setup_cases` leaves. -/
theorem settingsChangeOnlyByHostWrites : Obligations.SettingsChangeOnlyByHostWrites := by
  intro s t h
  rcases step_setup_cases h with ⟨hparams, hsettings, henable⟩ | ⟨hparams, hwrite⟩
  · exact ⟨hparams, fun hne => hne.elim (absurd hsettings) (absurd henable)⟩
  · exact ⟨hparams, fun _ => hwrite⟩

end Sys2Proof.Machine
end

section
/-! PROOF. HOST accesses as steps (R82, R83, R85, R86): the step a scheduled access makes, and the bus error of one of
the wrong width or alignment. -/

namespace Sys2Proof.Machine

open Sys2Proof

/-- R82: an access ends with a bus error exactly where its width or its alignment is wrong. -/
theorem badAccess_eq_true_iff (width : Nat) (off : Offset) :
    badAccess width off = true ↔ width ≠ 4 ∨ off.toNat % 4 ≠ 0 := by
  simp only [badAccess, Bool.not_eq_true', Bool.and_eq_false_iff, beq_eq_false_iff_ne]

theorem badAccess_word {off : Offset} (h : off.toNat % 4 = 0) : badAccess 4 off = false := by
  simp [badAccess, h]

theorem State.takeInput_of_inputs {s : State} {i : Input} {rest : List Input} (hin : s.inputs = i :: rest) :
    s.takeInput = { s with inputs := rest, port := .none } := by
  rw [State.takeInput, hin, List.tail_cons]

/-- R8: with `rst_n` released, the head of the schedule makes its agent's step. -/
theorem step_of_inputs {s : State} {i : Input} {rest : List Input} (hrst : s.rstAsserted = false)
    (hin : s.inputs = i :: rest) : step s = agentStep i { s with inputs := rest, port := .none } := by
  rw [← State.takeInput_of_inputs hin]
  simp only [step, hin, inputStep, State.takeInput_rstAsserted, hrst, Bool.false_eq_true, if_false]

/-- R83: the answer on a write's bus error is all that it leaves. -/
theorem hostWrite_of_badAccess {width : Nat} {off : Offset} (v : Word) (s : State) (h : badAccess width off = true) :
    hostWrite off width v s = .next { s with port := .writeError } :=
  if_pos h

theorem hostRead_of_badAccess {width : Nat} {off : Offset} (s : State) (h : badAccess width off = true) :
    hostRead off width s = { s with port := .readError 0 } :=
  if_pos h

/-- R85: a word write that is no command is a port write. -/
theorem hostWrite_word {off : Offset} (v : Word) (s : State) (h : off.toNat % 4 = 0) (hcmd : off ≠ cmdOffset) :
    hostWrite off 4 v s = .next (State.portWrite { s with port := .written } off v) := by
  simp only [hostWrite, badAccess_word h, hcmd, Bool.false_eq_true, if_false]

/-- R86: a word read answers with the value of its target. -/
theorem hostRead_word {off : Offset} (s : State) (h : off.toNat % 4 = 0) :
    hostRead off 4 s = { s with port := .data (s.portRead off) } := by
  simp only [hostRead, badAccess_word h, Bool.false_eq_true, if_false]

/-- What a read returns does not depend on the schedule or on the port's last answer. -/
theorem State.portRead_inputs_port (s : State) (inputs : List Input) (port : PortAnswer) (off : Offset) :
    State.portRead { s with inputs := inputs, port := port } off = s.portRead off := rfl

/-- Settles O6: a scheduled access that `badAccess` names is answered with the error and does nothing more. -/
theorem busErrorChangesNothing : Obligations.BusErrorChangesNothing := by
  intro s off width v rest hrst hbad
  have hbad : badAccess width off = true := (badAccess_eq_true_iff width off).2 hbad
  refine ⟨fun hin => ?_, fun hin => ?_⟩
  · rw [step_of_inputs hrst hin, agentStep, hostWrite_of_badAccess v _ hbad]
  · rw [step_of_inputs hrst hin, agentStep, hostRead_of_badAccess _ hbad]

end Sys2Proof.Machine
end

section
/-! PROOF. Writes to the windows (R57, R85, R90): the four bytes a word write to the TX payload RAM stores. -/

namespace Sys2Proof.Machine

open Sys2Proof

theorem State.portWrite_txRamWord (s : State) (w : Nat) (v : Word) (h : w < 1024) :
    s.portWrite (BitVec.ofNat 15 (0x1000 + 4 * w)) v = s.writeTxWord w v := by
  rw [State.portWrite, targetOf_txRam w h]

theorem State.portWrite_rxPayloadWord (s : State) (w : Nat) (v : Word) (h : w < 1024) :
    s.portWrite (BitVec.ofNat 15 (0x2000 + 4 * w)) v = s := by
  rw [State.portWrite, targetOf_rxPayload w h]

theorem State.portWrite_magWord (s : State) (k : Nat) (v : Word) (h : k ≤ 2048) :
    s.portWrite (BitVec.ofNat 15 (0x4000 + 4 * k)) v = s := by
  rw [State.portWrite, targetOf_mag k h]

/-- R57, R85: byte `j` after a write of byte `k`; a byte at or above MAXLEN stores nothing. -/
theorem State.txByte_setTxByte (s : State) (k j : Nat) (v : Byte) :
    (s.setTxByte k v).txByte j = if j = k ∧ k < s.params.maxLen then v else s.txByte j := by
  by_cases hj : j = k
  · subst hj
    by_cases hk : j < s.params.maxLen
    · rw [State.txByte_setTxByte_same s j v hk, if_pos ⟨rfl, hk⟩]
    · rw [State.setTxByte, if_neg hk, if_neg (fun h => hk h.2)]
  · rw [State.txByte_setTxByte_other s k j v hj, if_neg (fun h => hj h.1)]

/-- A byte write changes the TX payload RAM only. -/
theorem State.setTxByte_eq_with (s : State) (k : Nat) (v : Byte) :
    ∃ ram, s.setTxByte k v = { s with txRam := ram } := by
  unfold State.setTxByte
  split
  · exact ⟨_, rfl⟩
  · exact ⟨s.txRam, rfl⟩

/-- R90: no effect while a transmission runs. -/
theorem State.writeTxWord_run {s : State} (w : Nat) (v : Word) (h : s.tx.state = .run) : s.writeTxWord w v = s :=
  if_pos h

theorem State.writeTxWord_idle {s : State} (w : Nat) (v : Word) (h : s.tx.state = .idle) :
    s.writeTxWord w v =
      (((s.setTxByte (4 * w) (byteOfWord v 0)).setTxByte (4 * w + 1) (byteOfWord v 1)).setTxByte (4 * w + 2)
        (byteOfWord v 2)).setTxByte (4 * w + 3) (byteOfWord v 3) :=
  if_neg (by rw [h]; decide)

/-- A word write changes the TX payload RAM only. -/
theorem State.writeTxWord_frame {s : State} (w : Nat) (v : Word) (h : s.tx.state = .idle) :
    s.writeTxWord w v = { s with txRam := (s.writeTxWord w v).txRam } := by
  rw [State.writeTxWord_idle w v h]
  obtain ⟨ram0, h0⟩ := s.setTxByte_eq_with (4 * w) (byteOfWord v 0)
  obtain ⟨ram1, h1⟩ := State.setTxByte_eq_with { s with txRam := ram0 } (4 * w + 1) (byteOfWord v 1)
  obtain ⟨ram2, h2⟩ := State.setTxByte_eq_with { s with txRam := ram1 } (4 * w + 2) (byteOfWord v 2)
  obtain ⟨ram3, h3⟩ := State.setTxByte_eq_with { s with txRam := ram2 } (4 * w + 3) (byteOfWord v 3)
  rw [h0, h1, h2, h3]

/-- R85: byte `k` after a word write to word `w`: one of the word's four bytes where it exists, else as before. -/
theorem State.txByte_writeTxWord {s : State} (w k : Nat) (v : Word) (h : s.tx.state = .idle) :
    (s.writeTxWord w v).txByte k =
      if k / 4 = w ∧ k < s.params.maxLen then byteOfWord v (k % 4) else s.txByte k := by
  rw [State.writeTxWord_idle w v h]
  simp only [State.txByte_setTxByte, State.setTxByte_params]
  by_cases hw : k / 4 = w
  · obtain ⟨q, hq, rfl⟩ : ∃ q, q < 4 ∧ k = 4 * w + q := ⟨k % 4, by omega, by omega⟩
    have hmod : (4 * w + q) % 4 = q := by omega
    rw [hmod]
    interval_cases q <;> simp [hw]
  · rw [if_neg (by omega), if_neg (by omega), if_neg (by omega), if_neg (by omega), if_neg (by omega)]

/-- Settles O8: the step is the port write of its target, and a word write to the TX payload RAM is four byte writes. -/
theorem payloadWritesFollowTheMap : Obligations.PayloadWritesFollowTheMap := by
  refine ⟨fun s off v rest hrst halign hcmd hin => ?_, fun s w v hw hrun => ?_, fun s w v hw hidle => ?_,
    fun s w v hw => s.portWrite_rxPayloadWord w v hw, fun s k v hk => s.portWrite_magWord k v hk⟩
  · rw [step_of_inputs hrst hin, agentStep, hostWrite_word v _ halign hcmd]
  · rw [s.portWrite_txRamWord w v hw, State.writeTxWord_run w v hrun]
  · rw [s.portWrite_txRamWord w v hw]
    exact ⟨State.writeTxWord_frame w v hidle, fun k => State.txByte_writeTxWord w k v hidle⟩

end Sys2Proof.Machine
end

section
/-! PROOF. Reserved bits and unmapped offsets (R84): what of a word no field reaches. -/

namespace Sys2Proof.Machine

open Sys2Proof Sys2Proof.Safety

/-- R20, R81: what `unmappedOffset` lists reaches no register and no window. -/
theorem targetOf_unmapped {off : Offset} (h : unmappedOffset off = true) : targetOf off = .unmapped := by
  simp only [unmappedOffset, Bool.and_eq_true, Bool.or_eq_true, decide_eq_true_eq, List.contains_iff_mem] at h
  obtain ⟨-, hrange | hgap⟩ := h
  · unfold targetOf
    simp only
    rw [if_neg (by omega), if_neg (by omega), if_neg (by omega), if_neg (by omega)]
  · have hgaps : ∀ o ∈ [0x068, 0x06C, 0x088, 0x08C, 0x0BC], targetOf (BitVec.ofNat 15 o) = .unmapped := by decide
    simpa only [BitVec.ofNat_toNat, BitVec.setWidth_eq] using hgaps _ hgap

theorem State.portRead_unmapped (s : State) {off : Offset} (h : unmappedOffset off = true) : s.portRead off = 0 := by
  rw [State.portRead, targetOf_unmapped h]

theorem State.portWrite_unmapped (s : State) {off : Offset} (v : Word) (h : unmappedOffset off = true) :
    s.portWrite off v = s := by
  rw [State.portWrite, targetOf_unmapped h]

/-! Reserved bits read 0. -/

/-- A bit inside a field that is 0 is 0. -/
theorem getLsbD_of_extractLsb'_eq_zero {w : Word} {start len : Nat} (h : w.extractLsb' start len = 0) {k : Nat}
    (hstart : start ≤ k) (hend : k < start + len) : w.getLsbD k = false := by
  have hk : (w.extractLsb' start len).getLsbD (k - start) = false := by rw [h]; exact BitVec.getLsbD_zero
  rw [BitVec.getLsbD_extractLsb', Nat.add_sub_cancel' hstart] at hk
  simpa [show k - start < len by omega] using hk

/-- A word is 0 off a mask when its bits off the mask are. -/
theorem and_not_eq_zero {w mask : Word} (h : ∀ k < 32, mask.getLsbD k = false → w.getLsbD k = false) :
    w &&& ~~~mask = 0 := by
  apply BitVec.eq_of_getLsbD_eq
  intro k hk
  cases hm : mask.getLsbD k with
  | true => simp [hm]
  | false => simp [h k hk hm]

/-- A narrow field has no bit off its own mask. -/
theorem setWidth_and_not_mask {n : Nat} (x : BitVec n) :
    x.setWidth 32 &&& ~~~(BitVec.ofNat 32 (2 ^ n - 1)) = 0 := by
  apply and_not_eq_zero
  intro k hk hm
  rw [BitVec.getLsbD_ofNat, Nat.testBit_two_pow_sub_one] at hm
  have hn : n ≤ k := by simpa [hk] using hm
  rw [BitVec.getLsbD_setWidth, BitVec.getLsbD_of_ge x k hn, Bool.and_false]

/-- The reserved bits of STATUS (R27). -/
theorem State.statusWord_reserved (s : State) {k : Nat} (h : k ∈ [3, 7, 18, 19] ∨ 24 ≤ k) :
    s.statusWord.getLsbD k = false := by
  obtain ⟨-, -, h3, -, h7, -, -, -, -, h18, -, h24⟩ := s.statusWord_fields
  rcases h with h | h
  · fin_cases h
    · exact h3
    · exact h7
    · exact getLsbD_of_extractLsb'_eq_zero h18 (by decide) (by decide)
    · exact getLsbD_of_extractLsb'_eq_zero h18 (by decide) (by decide)
  · by_cases hk : k < 32
    · exact getLsbD_of_extractLsb'_eq_zero h24 h hk
    · exact BitVec.getLsbD_of_ge _ _ (by omega)

/-- The reserved bits of RES_STATUS (R56). -/
theorem resStatusOf_and_not_definedBits (e : ResultEntry) : resStatusOf e &&& ~~~(definedBits .resStatus) = 0 := by
  obtain ⟨-, h1, -, -, -, -, h14, -, h20⟩ := resStatusOf_fields e
  apply and_not_eq_zero
  intro k hk hm
  have hreserved : (1 ≤ k ∧ k < 4) ∨ (14 ≤ k ∧ k < 16) ∨ 20 ≤ k := by
    revert k
    decide
  rcases hreserved with ⟨hlo, hhi⟩ | ⟨hlo, hhi⟩ | hlo
  · exact getLsbD_of_extractLsb'_eq_zero h1 hlo hhi
  · exact getLsbD_of_extractLsb'_eq_zero h14 hlo hhi
  · exact getLsbD_of_extractLsb'_eq_zero h20 hlo hk

/-- The reserved bits of PARAMS0 (R39). -/
theorem params0Word_and_not_definedBits (p : Params) : params0Word p &&& ~~~(definedBits .params0) = 0 := by
  obtain ⟨-, -, h20⟩ := params0Word_fields p
  apply and_not_eq_zero
  intro k hk hm
  have hreserved : 20 ≤ k := by
    revert k
    decide
  exact getLsbD_of_extractLsb'_eq_zero h20 hreserved hk

theorem params1Word_eq_setWidth (p : Params) : params1Word p = (BitVec.ofNat 16 p.syncHistDepth).setWidth 32 := by
  rw [BitVec.setWidth_eq_append (by decide)]
  rfl

/-- A field of the FIFO's head keeps to the bits that it has in every entry and where the FIFO is empty. -/
theorem State.headField_and_eq_zero (s : State) {f : ResultEntry → Word} {m : Word} (h : ∀ e, f e &&& m = 0) :
    s.headField f &&& m = 0 := by
  unfold State.headField
  split
  · exact BitVec.zero_and
  · exact h _

/-- R84: the reserved bits of every register read 0. -/
theorem readReg_and_not_definedBits {s : State} (h : ReservedBitsOk s) (r : Reg) :
    s.readReg r &&& ~~~(definedBits r) = 0 := by
  obtain ⟨hctrl, hissues⟩ := h
  cases r
  case cmd => exact BitVec.zero_and
  case ctrl => exact hctrl
  case issues => exact hissues
  case status =>
    refine and_not_eq_zero fun k hk hm => s.statusWord_reserved ?_
    revert k
    decide
  case params0 => exact params0Word_and_not_definedBits s.params
  case params1 =>
    rw [State.readReg, params1Word_eq_setWidth]
    exact setWidth_and_not_mask _
  case resStatus => exact s.headField_and_eq_zero resStatusOf_and_not_definedBits
  case resLen => exact s.headField_and_eq_zero fun e => setWidth_and_not_mask e.len
  case irqStatus | irqEnable | bitDurMs | guardMs | fadeInMs | fadeOutMs | amplitude | redundancy | txLen |
      winOverlap | errTol | maxRetries =>
    exact setWidth_and_not_mask _
  all_goals exact BitVec.and_zero

/-! Reserved bits ignore writes. -/

/-- A field takes the same bits of a word and of the word under a mask that holds the field. -/
theorem setWidth_and_of_mask {n : Nat} (v mask : Word) (h : mask.setWidth n = BitVec.allOnes n) :
    (v &&& mask).setWidth n = v.setWidth n := by
  rw [BitVec.setWidth_and, h, BitVec.and_allOnes]

/-- R84: a write stores nothing of the reserved bits of its word. -/
theorem writeReg_and_definedBits (s : State) (r : Reg) (v : Word) :
    s.writeReg r (v &&& definedBits r) = s.writeReg r v := by
  cases r
  case status => simp [State.writeReg, State.writeStatus, definedBits]
  case irqStatus =>
    simp only [State.writeReg, State.writeIrqStatus]
    rw [setWidth_and_of_mask v _ (by decide)]
  case irqEnable =>
    simp only [State.writeReg]
    rw [setWidth_and_of_mask v _ (by decide)]
  case ctrl =>
    simp only [State.writeReg, Settings.write]
    rw [BitVec.and_assoc, show definedBits .ctrl &&& ctrlMask = ctrlMask by decide]
  case bitDurMs | guardMs | fadeInMs | fadeOutMs | amplitude | redundancy | txLen | winOverlap | errTol |
      maxRetries =>
    simp only [State.writeReg, Settings.write]
    rw [setWidth_and_of_mask v _ (by decide)]
  case sampleRate | baseFreq | freqSep | txMaxSamples | minSignal | freqHintLo | freqHintHi =>
    exact congrArg (s.writeReg _) (and_fullMask v)
  all_goals rfl

/-- Settles O9: an unmapped offset reaches nothing, and no register's field reaches a reserved bit. -/
theorem unmappedAndReservedReadZeroIgnoreWrites : Obligations.UnmappedAndReservedReadZeroIgnoreWrites := by
  refine ⟨fun s off v h => ⟨s.portRead_unmapped h, s.portWrite_unmapped v h⟩, fun s hs o r hreg => ?_,
    fun s o r v hreg _ => ?_⟩
  · rw [s.portRead_reg hreg]
    exact readReg_and_not_definedBits hs r
  · rw [s.portWrite_reg hreg, s.portWrite_reg hreg, writeReg_and_definedBits]

end Sys2Proof.Machine
end

section
/-! PROOF. Reads by the map (R20 to R57, R86): what each register and window shows, field by field. -/

namespace Sys2Proof.Machine

open Sys2Proof Sys2Proof.Safety

/-! Windows (R57, R86, R87). -/

theorem State.portRead_txRam (s : State) (w : Nat) (h : w < 1024) :
    s.portRead (BitVec.ofNat 15 (0x1000 + 4 * w)) = windowWord s.txWindowByte w := by
  rw [State.portRead, targetOf_txRam w h]

theorem State.portRead_rxPayload (s : State) (w : Nat) (h : w < 1024) :
    s.portRead (BitVec.ofNat 15 (0x2000 + 4 * w)) = windowWord s.rxWindowByte w := by
  rw [State.portRead, targetOf_rxPayload w h]

theorem State.portRead_mag (s : State) (k : Nat) (h : k ≤ 2048) :
    s.portRead (BitVec.ofNat 15 (0x4000 + 4 * k)) = s.magWord k := by
  rw [State.portRead, targetOf_mag k h]

/-! Tables of registers. -/

theorem State.portRead_of_targetOf (s : State) {off : Offset} {r : Reg} (h : targetOf off = .reg r) :
    s.portRead off = s.readReg r := by
  rw [State.portRead, h]

/-- Offsets that reach the registers of a table read as these registers, whatever is looked at in each word. -/
theorem State.map_portRead {α : Type} (s : State) (f : Word → α) {offs : List Offset} {regs : List Reg}
    (h : offs.map targetOf = regs.map .reg) :
    offs.map (fun o => f (s.portRead o)) = regs.map (fun r => f (s.readReg r)) := by
  induction offs generalizing regs with
  | nil => cases regs with
    | nil => rfl
    | cons r regs => cases h
  | cons o offs ih => cases regs with
    | nil => cases h
    | cons r regs =>
      rw [List.map_cons, List.map_cons, List.cons.injEq] at h
      obtain ⟨ho, hrest⟩ := h
      rw [List.map_cons, List.map_cons, s.portRead_of_targetOf ho, ih hrest]

/-- The word-wide settings (R23, R32 to R48). -/
theorem State.portRead_wideSettings (s : State) :
    [0x004, 0x020, 0x024, 0x028, 0x048, 0x054, 0x060, 0x064].map s.portRead =
      [s.settings.ctrl, s.settings.sampleRate, s.settings.baseFreq, s.settings.freqSep, s.settings.txMaxSamples,
        s.settings.minSignal, s.settings.freqHintLo, s.settings.freqHintHi] :=
  s.map_portRead id
    (regs := [.ctrl, .sampleRate, .baseFreq, .freqSep, .txMaxSamples, .minSignal, .freqHintLo, .freqHintHi]) (by decide)

/-- The narrow settings show their value, extended by zeros (R32 to R48). -/
theorem State.portRead_narrowSettings (s : State) :
    [0x02C, 0x030, 0x034, 0x038, 0x03C, 0x040, 0x044, 0x050, 0x058, 0x05C].map (fun o => (s.portRead o).toNat) =
      [s.settings.bitDurMs.toNat, s.settings.guardMs.toNat, s.settings.fadeInMs.toNat, s.settings.fadeOutMs.toNat,
        s.settings.amplitude.toNat, s.settings.redundancy.toNat, s.settings.txLen.toNat, s.settings.winOverlap.toNat,
        s.settings.errTol.toNat, s.settings.maxRetries.toNat] := by
  rw [s.map_portRead BitVec.toNat (regs := [.bitDurMs, .guardMs, .fadeInMs, .fadeOutMs, .amplitude, .redundancy, .txLen,
    .winOverlap, .errTol, .maxRetries]) (by decide)]
  simp only [List.map_cons, List.map_nil, State.readReg]
  simp (disch := decide) only [BitVec.toNat_setWidth_of_le]

/-- R39, R40: PARAMS0 and PARAMS1 show legal parameters in full. -/
theorem State.portRead_params (s : State) (h : s.params.legal = true) :
    ((s.portRead 0x01C).extractLsb' 0 16).toNat = s.params.maxLen ∧
    ((s.portRead 0x01C).extractLsb' 16 4).toNat = s.params.resultDepth ∧
    (s.portRead 0x01C).extractLsb' 20 12 = 0 ∧ (s.portRead 0x04C).toNat = s.params.syncHistDepth := by
  have hread0 : s.portRead 0x01C = params0Word s.params := s.portRead_of_targetOf (r := .params0) (by decide)
  have hread1 : s.portRead 0x04C = params1Word s.params := s.portRead_of_targetOf (r := .params1) (by decide)
  obtain ⟨hlen, hdepth, hzero⟩ := params0Word_fields s.params
  simp only [Params.legal, Bool.and_eq_true, decide_eq_true_eq] at h
  rw [hread0, hread1, hlen, hdepth, hzero, params1Word_eq_setWidth, BitVec.toNat_setWidth_of_le (by decide)]
  simp only [BitVec.toNat_ofNat]
  exact ⟨Nat.mod_eq_of_lt (by omega), Nat.mod_eq_of_lt (by omega), trivial, Nat.mod_eq_of_lt (by omega)⟩

/-! Counters (R49 to R54). -/

theorem toNat_trunc32 (n : Nat) : (trunc32 n).toNat = n % 2 ^ 32 := BitVec.toNat_ofNat n 32

theorem State.portRead_counters (s : State) :
    [0x070, 0x074, 0x078, 0x07C, 0x080].map (fun o => (s.portRead o).toNat) =
      [s.tx.count % 2 ^ 32, s.tx.total % 2 ^ 32, s.rx.n % 2 ^ 32, s.rx.t % 2 ^ 32, s.rx.detStrength % 2 ^ 32] := by
  rw [s.map_portRead BitVec.toNat (regs := [.txSampleCnt, .txTotal, .rxSampleCnt, .rxFrameCnt, .detStrength])
    (by decide)]
  simp only [List.map_cons, List.map_nil, State.readReg, toNat_trunc32]

/-- R54: RX_SYM_CNT is 0 while no region is in progress. -/
theorem State.symCount_no_region {s : State} (h : s.rx.state = .idle ∨ s.rx.state = .scanning) : s.symCount = 0 := by
  unfold State.symCount
  rcases h with h | h <;> simp only [h]

/-- R54: RX_SYM_CNT is the symbols decided of the region in progress. -/
theorem State.symCount_region {s : State} {r : Region} (h : s.rx.state = .locked ∨ s.rx.state = .demod)
    (hr : s.rx.reg = some r) : s.symCount = trunc32 r.j := by
  unfold State.symCount
  rcases h with h | h <;> simp only [h, hr]

/-! The results (R55, R56). -/

theorem State.headField_nil {s : State} (h : s.fifo = []) (f : ResultEntry → Word) : s.headField f = 0 := by
  rw [State.headField, h]

theorem State.headField_cons {s : State} {e : ResultEntry} {rest : List ResultEntry} (h : s.fifo = e :: rest)
    (f : ResultEntry → Word) : s.headField f = f e := by
  rw [State.headField, h]

/-- R55: with an empty FIFO every RES_* register shows 0. -/
theorem State.portRead_results_nil {s : State} (h : s.fifo = []) :
    ∀ o ∈ [0x090, 0x094, 0x098, 0x09C, 0x0A0, 0x0A4, 0x0A8, 0x0AC, 0x0B0, 0x0B4, 0x0B8], s.portRead o = 0 := by
  have hread := s.map_portRead id
    (offs := [0x090, 0x094, 0x098, 0x09C, 0x0A0, 0x0A4, 0x0A8, 0x0AC, 0x0B0, 0x0B4, 0x0B8])
    (regs := [.resStatus, .resLen, .resStart, .resEnd, .resFreq, .resErrCorr, .resErasures, .resStrength, .resSymbols,
      .resSumWin, .resSumRun]) (by decide)
  refine List.map_eq_replicate_iff.1 (hread.trans ?_)
  simp only [List.map_cons, List.map_nil, State.readReg, State.headField_nil h]
  rfl

/-- R55: the RES_* registers but RES_STATUS show the fields of the FIFO's head. -/
theorem State.portRead_results_cons {s : State} {e : ResultEntry} {rest : List ResultEntry} (h : s.fifo = e :: rest) :
    [0x094, 0x098, 0x09C].map (fun o => (s.portRead o).toNat) = [e.len.toNat, e.start % 2 ^ 32, e.stop % 2 ^ 32] ∧
    [0x0A0, 0x0A4, 0x0A8, 0x0AC, 0x0B0, 0x0B4, 0x0B8].map s.portRead =
      [e.freq, e.corrected, e.erasures, e.strength, e.symbols, e.sumw, e.sumr] := by
  constructor
  · rw [s.map_portRead BitVec.toNat (regs := [.resLen, .resStart, .resEnd]) (by decide)]
    simp only [List.map_cons, List.map_nil, State.readReg, State.headField_cons h, toNat_trunc32]
    rw [BitVec.toNat_setWidth_of_le (by decide)]
  · refine (s.map_portRead id (regs := [.resFreq, .resErrCorr, .resErasures, .resStrength, .resSymbols, .resSumWin,
      .resSumRun]) (by decide)).trans ?_
    simp only [List.map_cons, List.map_nil, State.readReg, State.headField_cons h, id]

theorem bne_zero_iff_pos (w : Word) : (w != 0) = true ↔ 0 < w.toNat := by
  rw [bne_iff_ne, Nat.pos_iff_ne_zero, ne_eq, ne_eq, ← BitVec.toNat_inj]
  rfl

/-- R56: RES_STATUS shows the head's outcome, reason and flags. -/
theorem State.portRead_resStatus {s : State} {e : ResultEntry} {rest : List ResultEntry} (h : s.fifo = e :: rest) :
    s.portRead 0x090 = resStatusOf e :=
  (s.portRead_of_targetOf (r := .resStatus) (by decide)).trans (State.headField_cons h _)

/-! STATUS (R27). -/

theorem State.portRead_status (s : State) : s.portRead 0x00C = s.statusWord :=
  s.portRead_of_targetOf (r := .status) (by decide)

theorem TxEngine.stateCode_idle {tx : TxEngine} (h : tx.state = .idle) : tx.stateCode = 0 := by
  rw [TxEngine.stateCode, h]

/-- R27, R61: the first 13 slots of a transmission are the preamble. -/
theorem TxEngine.stateCode_run {tx : TxEngine} (h : tx.state = .run) :
    tx.stateCode = if tx.slot < 13 then 1 else 2 := by
  rw [TxEngine.stateCode, h]

/-- R27: STATUS counts the FIFO's entries in four bits, enough for 15. -/
theorem State.status_entries (s : State) (h : s.fifo.length ≤ 15) :
    (s.statusWord.extractLsb' 20 4).toNat = s.fifo.length := by
  obtain ⟨-, -, -, -, -, -, -, -, -, -, hcount, -⟩ := s.statusWord_fields
  rw [hcount, BitVec.toNat_ofNat, Nat.mod_eq_of_lt (by omega)]

/-- Settles O7: the step's answer is `portRead`, whose target is found by `targetOf`, and each register and window shows
its fields. -/
theorem readsFollowTheMapAndChangeNothing : Obligations.ReadsFollowTheMapAndChangeNothing := by
  refine ⟨fun s off rest hrst halign hin => ?step, fun s o r hreg => s.portRead_reg hreg, fun s => ?constants,
    fun s => ?settings, fun s => ?status, rfl, rfl, fun s => ?counters, fun s hf => State.portRead_results_nil hf,
    fun s e rest hf => ?results, fun s w q hw hq => ?txRam, fun s w q hw hq => ?rxPayload,
    fun s k hk => s.portRead_mag k hk⟩
  case step =>
    rw [step_of_inputs hrst hin, agentStep, hostRead_word _ halign, State.portRead_inputs_port]
  case constants =>
    exact ⟨s.portRead_of_targetOf (r := .id) (by decide), s.portRead_of_targetOf (r := .cmd) (by decide)⟩
  case settings =>
    have hstatus : s.portRead 0x010 = s.irqStatus.setWidth 32 := s.portRead_of_targetOf (r := .irqStatus) (by decide)
    have henable : s.portRead 0x014 = s.irqEnable.setWidth 32 := s.portRead_of_targetOf (r := .irqEnable) (by decide)
    refine ⟨s.portRead_wideSettings, s.portRead_narrowSettings, ?_, ?_,
      s.portRead_of_targetOf (r := .issues) (by decide), s.portRead_params⟩
    · rw [hstatus, BitVec.toNat_setWidth_of_le (by decide)]
    · rw [henable, BitVec.toNat_setWidth_of_le (by decide)]
  case status =>
    obtain ⟨htx, habort, -, hrx, -, htxOut, hrxOut, hcmd, hovf, -⟩ := s.statusWord_fields
    simp only [s.portRead_status]
    refine ⟨?_, habort, ?_, htxOut, hrxOut, hcmd, hovf, s.status_entries, fun k hk => s.statusWord_reserved hk⟩
    · rw [htx]
      cases hst : s.tx.state with
      | idle => rw [TxEngine.stateCode_idle hst]; rfl
      | run =>
        rw [TxEngine.stateCode_run hst]
        split <;> rfl
    · rw [hrx]
      cases s.rx.state <;> rfl
  case counters =>
    have hread : s.portRead 0x084 = s.symCount := s.portRead_of_targetOf (r := .rxSymCnt) (by decide)
    refine ⟨s.portRead_counters, fun h => ?_, fun r h hr => ?_⟩
    · rw [hread, State.symCount_no_region h]
    · rw [hread, State.symCount_region h hr, toNat_trunc32]
  case results =>
    obtain ⟨hvalid, h1, hcode, hreason, herased, hcorrected, h14, hflags, h20⟩ := resStatusOf_fields e
    simp only [State.portRead_resStatus hf]
    exact ⟨hvalid, h1, hcode, hreason, by rw [herased, bne_zero_iff_pos], by rw [hcorrected, bne_zero_iff_pos], h14,
      hflags, h20, State.portRead_results_cons hf⟩
  case txRam =>
    rw [s.portRead_txRam w hw]
    exact byteOfWord_windowWord s.txWindowByte w q hq
  case rxPayload =>
    rw [s.portRead_rxPayload w hw]
    refine (byteOfWord_windowWord s.rxWindowByte w q hq).trans ?_
    unfold State.rxWindowByte
    cases s.fifo <;> rfl

end Sys2Proof.Machine
end

section
/-! PROOF. The command word (R100 to R103): a word is its two fields, the ten words that `decode` accepts are those
`encode` gives, and every other word is refused by its field. -/

namespace Sys2Proof

open Sys2Proof.Laws

/-- R102: a command's word decodes to the command. -/
theorem decode_encode (i : Instr) : decode (encode i) = .ok i := by
  have of_statement {i : Instr} (h : Encoding.Statement i) : decode (encode i) = .ok i := by
    obtain ⟨-, -, -, hdecode⟩ := h
    exact hdecode
  cases i
  case nop => exact of_statement Encoding.nop
  case txStart => exact of_statement Encoding.txStart
  case txAbort => exact of_statement Encoding.txAbort
  case validateTx => exact of_statement Encoding.validateTx
  case validateRx => exact of_statement Encoding.validateRx
  case rxEnable => exact of_statement Encoding.rxEnable
  case rxFinish => exact of_statement Encoding.rxFinish
  case rxAbort => exact of_statement Encoding.rxAbort
  case resPop => exact of_statement Encoding.resPop
  case softReset => exact of_statement Encoding.softReset

/-- R100: MBZ and OPCODE are the whole word. -/
theorem mbzField_append_opcodeField (w : Word) : mbzField w ++ opcodeField w = w :=
  BitVec.extractLsb'_append_extractLsb' (len := 8) (w := 24)

/-- R103: a word whose MBZ field is not zero is illegal, whatever its OPCODE. -/
theorem decode_of_mbzField_ne_zero {w : Word} (h : mbzField w ≠ 0) : decode w = .error (.operandFieldNotZero w) :=
  if_neg h

/-- R101: with the MBZ field zero, the OPCODE is looked up. -/
theorem decode_eq_ok_iff (w : Word) (i : Instr) :
    decode w = .ok i ↔ mbzField w = 0 ∧ opcodeMap.lookup (opcodeField w) = some i := by
  by_cases hmbz : mbzField w = 0
  · unfold decode
    cases opcodeMap.lookup (opcodeField w) <;> simp [hmbz]
  · rw [decode_of_mbzField_ne_zero hmbz]
    exact iff_of_false nofun fun h => hmbz h.1

/-- R103: an OPCODE that the map does not list is illegal. -/
theorem decode_of_unlisted_opcode {w : Word} (hmbz : mbzField w = 0)
    (h : opcodeField w ∉ opcodeMap.map Prod.fst) : decode w = .error (.unknownOpcode (opcodeField w)) := by
  have hlookup : opcodeMap.lookup (opcodeField w) = none :=
    List.lookup_eq_none_iff.2 fun p hp => bne_iff_ne.2 fun heq => h (heq ▸ List.mem_map_of_mem hp)
  simp only [decode, hmbz, hlookup, if_true]

/-- R102: the map gives each command the OPCODE of its word. -/
theorem mem_opcodeMap_iff (o : Byte) (i : Instr) : (o, i) ∈ opcodeMap ↔ o = opcodeField (encode i) := by
  cases i <;> simp [opcodeMap, encode, opcodeField]

/-- R102: the legal words are the commands' words. -/
theorem decode_eq_ok_iff_eq_encode (w : Word) (i : Instr) : decode w = .ok i ↔ w = encode i := by
  refine ⟨fun h => ?_, fun h => h ▸ decode_encode i⟩
  obtain ⟨hmbz, hlookup⟩ := (decode_eq_ok_iff w i).1 h
  obtain ⟨hmbz', -⟩ := (decode_eq_ok_iff _ i).1 (decode_encode i)
  obtain ⟨before, after, hmap, -⟩ := List.lookup_eq_some_iff.1 hlookup
  have hmem : (opcodeField w, i) ∈ opcodeMap := by simp [hmap]
  calc
    w = mbzField w ++ opcodeField w := (mbzField_append_opcodeField w).symm
    _ = mbzField (encode i) ++ opcodeField (encode i) := by rw [hmbz, hmbz', (mem_opcodeMap_iff _ i).1 hmem]
    _ = encode i := mbzField_append_opcodeField _

/-- R100: a byte as a command word has the OPCODE it is and a zero MBZ field. -/
theorem fields_of_byte (o : Byte) : opcodeField (o.setWidth 32) = o ∧ mbzField (o.setWidth 32) = 0 := by
  constructor
  · rw [opcodeField, BitVec.extractLsb'_setWidth_of_le (by decide), BitVec.extractLsb'_eq_self]
  · ext k hk
    simp [mbzField]

theorem decodeTableWord_eq_some_iff (nbits w : Nat) (i : Instr) :
    decodeTableWord nbits w = some i ↔ decode (tableWord nbits w) = .ok i := by
  unfold decodeTableWord
  cases decode (tableWord nbits w) <;> simp

theorem decodeTableWord_encode (i : Instr) : decodeTableWord 32 (encode i).toNat = some i := by
  have hword : tableWord 32 (encode i).toNat = encode i := by
    rw [tableWord, Nat.mod_eq_of_lt (encode i).isLt, BitVec.ofNat_toNat, BitVec.setWidth_eq]
  rw [decodeTableWord_eq_some_iff, hword, decode_encode]

theorem decodeTableWord_eq_none_iff (nbits w : Nat) :
    decodeTableWord nbits w = none ↔ ∀ i, tableWord nbits w ≠ encode i := by
  simp only [Option.eq_none_iff_forall_ne_some, ne_eq, decodeTableWord_eq_some_iff, decode_eq_ok_iff_eq_encode]

/-- R103: the values of a list that are not among some of its values are the rest of it. -/
theorem length_filter_not_mem {l listed : List Nat} (hl : l.Nodup) (hlisted : listed.Nodup) (hsub : listed ⊆ l) :
    (l.filter (fun o => !(o ∈ listed))).length + listed.length = l.length := by
  have hperm : (listed ++ l.diff listed).Perm l :=
    List.subperm_append_diff_self_of_count_le (List.subperm_ext_iff.1 (hlisted.subperm hsub))
  rw [← hperm.length_eq, List.length_append, hl.sdiff_eq_filter, Nat.add_comm]
  simp only [decide_not]

/-- Settles O1: the legal words are the `encode` words, and an illegal one fails at its MBZ field or at the lookup. -/
theorem decodeAcceptsExactlyTheTenWords : Obligations.DecodeAcceptsExactlyTheTenWords := by
  refine ⟨fun w i => ?words, fun w h => decode_of_mbzField_ne_zero h, fun o ho => ?opcode, ?count⟩
  case words =>
    rw [decode_eq_ok_iff_eq_encode]
    cases i <;> simp [encode]
  case opcode =>
    obtain ⟨hopcode, hmbz⟩ := fields_of_byte o
    rw [decode_of_unlisted_opcode hmbz (by rwa [hopcode]), hopcode]
  case count =>
    have hcount := length_filter_not_mem (l := List.range 256)
      (listed := [0x00, 0x01, 0x02, 0x03, 0x04, 0x10, 0x11, 0x12, 0x13, 0xA5]) List.nodup_range (by decide)
      (by simp [List.subset_def])
    simp only [List.length_range, List.length_cons, List.length_nil] at hcount
    omega

/-- Settles O2: the literal words are the commands' own words, and the others are no command's. -/
theorem tableWordsDecode : Obligations.TableWordsDecode := by
  have hwords : [Instr.nop, .txStart, .txAbort, .validateTx, .validateRx, .rxEnable, .rxFinish, .rxAbort, .resPop,
      .softReset].map (fun i => decodeTableWord 32 (encode i).toNat) =
        [Instr.nop, .txStart, .txAbort, .validateTx, .validateRx, .rxEnable, .rxFinish, .rxAbort, .resPop,
          .softReset].map some := List.map_congr_left fun i _ => decodeTableWord_encode i
  refine ⟨hwords, hwords, ?_⟩
  have houtside : ∀ w ∈ [0x100, 0x05, 0x0F, 0x14, 0xA4, 0xFF, 0x1A5, 0x80000001], decodeTableWord 32 w = none := by
    intro w hw
    rw [decodeTableWord_eq_none_iff]
    intro i
    revert w
    cases i <;> decide
  exact (List.map_congr_left houtside).trans rfl

end Sys2Proof
end

section
/-! PROOF. Commands as steps (R26, R101, R104): the step that writes a word to CMD runs its command or refuses the word,
a refusal leaves CMD_ERR and its event alone, and what is not refused raises neither. -/

namespace Sys2Proof.Machine

open Sys2Proof Sys2Proof.Safety

/-- R26, R101: a word written to CMD is issued as a command. -/
theorem hostWrite_cmd (w : Word) (s : State) :
    hostWrite cmdOffset 4 w s = issueCommand w { s with port := .written } := by
  have haligned : badAccess 4 cmdOffset = false := badAccess_word (by decide)
  simp only [hostWrite, haligned, Bool.false_eq_true, if_false, if_true]

/-- R101: a legal word runs its command. -/
theorem issueCommand_of_decode {w : Word} {i : Instr} (s : State) (h : decode w = .ok i) :
    issueCommand w s = exec i s := by
  simp only [issueCommand, h]

/-- R103, R104: an illegal word is refused. -/
theorem issueCommand_of_illegal {w : Word} (s : State) (h : ∀ i, decode w ≠ .ok i) :
    issueCommand w s = .next s.refuse := by
  unfold issueCommand
  cases hdecode : decode w with
  | ok i => exact absurd hdecode (h i)
  | error e => rfl

/-- R26: the step of a scheduled CMD write issues its word, the schedule and the port's answer being the model's. -/
theorem step_of_cmdWrite {s : State} {w : Word} {rest : List Input}
    (hin : s.inputs = .hostWrite cmdOffset 4 w :: rest) (hrst : s.rstAsserted = false) :
    step s = issueCommand w { s with inputs := rest, port := .written } := by
  rw [step_of_inputs hrst hin, agentStep, hostWrite_cmd]

/-- Settles O3: a scheduled CMD write issues its word, and `withFetchWord` schedules one. -/
theorem stepRunsTheCommandWritten : Obligations.StepRunsTheCommandWritten := by
  refine ⟨fun s w i rest hin hrst hdecode _ => ?_, fun s nbits w i hdecode _ => ?_⟩
  · rw [step_of_cmdWrite hin hrst, issueCommand_of_decode _ hdecode]
  · have hin : (s.withFetchWord nbits w).inputs = .hostWrite cmdOffset 4 (tableWord nbits w) :: s.inputs := rfl
    rw [step_of_cmdWrite hin rfl, issueCommand_of_decode _ ((decodeTableWord_eq_some_iff nbits w i).1 hdecode)]
    rfl

/-- R104, R282: a refusal sets STATUS.CMD_ERR and bit 5 of IRQ_STATUS. -/
theorem State.refuse_eq (s : State) : s.refuse = { s with cmdErr := true, irqStatus := s.irqStatus ||| 0x20 } := rfl

/-- R104: a command that the state refuses has no other effect. -/
theorem exec_of_refused {i : Instr} {s : State} (h : Refused i s) : exec i s = .next s.refuse := by
  rcases h with ⟨rfl, hrun⟩ | ⟨rfl, hbusy⟩ | ⟨rfl, hidle⟩ | ⟨rfl, hempty⟩
  · exact if_pos hrun
  · exact if_pos hbusy
  · exact if_pos hidle
  · simp only [exec, execResPop, hempty]

/-- R104: neither STATUS.CMD_ERR nor its event is set by going from `s` to `t`. -/
def RaisesNoCmdErr (s t : State) : Prop :=
  (t.cmdErr = true → s.cmdErr = true) ∧ (t.irqStatus.getLsbD 5 = true → s.irqStatus.getLsbD 5 = true)

theorem RaisesNoCmdErr.trans {s t u : State} (hst : RaisesNoCmdErr s t) (htu : RaisesNoCmdErr t u) :
    RaisesNoCmdErr s u := by
  obtain ⟨herr, hevent⟩ := hst
  obtain ⟨herr', hevent'⟩ := htu
  exact ⟨herr ∘ herr', hevent ∘ hevent'⟩

theorem raisesNoCmdErr_of_frame {s t : State} (herr : t.cmdErr = s.cmdErr) (hirq : t.irqStatus = s.irqStatus) :
    RaisesNoCmdErr s t :=
  ⟨fun h => herr ▸ h, fun h => hirq ▸ h⟩

/-- R282: each event has a bit of its own, so another event leaves the CMD_ERR event as it is. -/
theorem raisesNoCmdErr_of_event {s t : State} {e : IrqEvent} (he : e ≠ .cmdErr) (herr : t.cmdErr = s.cmdErr)
    (hirq : t.irqStatus = s.irqStatus ||| BitVec.twoPow 6 e.bit) : RaisesNoCmdErr s t := by
  have hbit : (BitVec.twoPow 6 e.bit).getLsbD 5 = false := by
    cases e <;> first | rfl | exact absurd rfl he
  refine ⟨fun h => herr ▸ h, fun h => ?_⟩
  rwa [hirq, BitVec.getLsbD_or, hbit, Bool.or_false] at h

/-- R258, R260: the region that RX_FINISH ends pushes its result, or overflows. -/
theorem truncateRegion_raisesNoCmdErr (s : State) : RaisesNoCmdErr s s.truncateRegion := by
  rcases truncateRegion_cases s with ⟨sn, r, -, -, -, h⟩ | ⟨h, -⟩ <;> rw [h]
  · refine raisesNoCmdErr_of_event ?_ (State.endRegion_cmdErr ..) (endRegion_irqStatus ..)
    split <;> decide
  · exact raisesNoCmdErr_of_frame rfl rfl

/-- R104: a command that the state does not refuse raises no CMD_ERR. -/
theorem exec_raisesNoCmdErr {i : Instr} {s t : State} (hnot : ¬Refused i s) (h : exec i s = .next t) :
    RaisesNoCmdErr s t := by
  rcases exec_cases h with ⟨-, rfl⟩ | ⟨rfl, h⟩ | ⟨-, h⟩ | ⟨-, rfl⟩ | ⟨-, rfl⟩ | ⟨rfl, h⟩ | ⟨rfl, h⟩ | ⟨-, h⟩ |
    ⟨rfl, h⟩ | ⟨-, h⟩
  · exact raisesNoCmdErr_of_frame rfl rfl
  · rcases execTxStart_cases h with ⟨hrun, -⟩ | ⟨-, -, rfl⟩ | ⟨ec, -, -, -, ⟨-, rfl⟩ | ⟨-, rfl⟩⟩
    · exact absurd (.inl ⟨rfl, hrun⟩) hnot
    · exact raisesNoCmdErr_of_event (e := .txDone) (by decide) rfl rfl
    · exact raisesNoCmdErr_of_frame rfl rfl
    · exact raisesNoCmdErr_of_event (e := .txDone) (by decide) rfl rfl
  · rcases execTxAbort_cases h with ⟨-, rfl⟩ | ⟨-, rfl⟩
    · exact raisesNoCmdErr_of_frame rfl rfl
    · exact raisesNoCmdErr_of_frame rfl rfl
  · exact raisesNoCmdErr_of_frame rfl rfl
  · exact raisesNoCmdErr_of_frame rfl rfl
  · rcases execRxEnable_cases h with ⟨hbusy, -⟩ | ⟨-, -, rfl⟩ | ⟨ec, margin, -, -, -, -, rfl⟩
    · exact absurd (.inr (.inl ⟨rfl, hbusy⟩)) hnot
    · exact raisesNoCmdErr_of_event (e := .rxDone) (by decide) rfl rfl
    · exact raisesNoCmdErr_of_frame rfl rfl
  · rcases execRxFinish_cases h with ⟨hidle, -⟩ | ⟨-, rfl⟩
    · exact absurd (.inr (.inr (.inl ⟨rfl, hidle⟩))) hnot
    · exact (truncateRegion_raisesNoCmdErr s).trans (raisesNoCmdErr_of_event (e := .rxDone) (by decide) rfl rfl)
  · rcases execRxAbort_cases h with ⟨-, rfl⟩ | ⟨-, rfl⟩
    · exact raisesNoCmdErr_of_frame rfl rfl
    · exact raisesNoCmdErr_of_event (e := .rxDone) (by decide) rfl rfl
  · rcases execResPop_cases h with ⟨hempty, -⟩ | ⟨e, rest, -, rfl⟩
    · exact absurd (.inr (.inr (.inr ⟨rfl, hempty⟩))) hnot
    · exact raisesNoCmdErr_of_frame rfl rfl
  · injection h with h
    subst h
    exact ⟨by simp, by simp⟩

/-- Settles O4: a refusal is `State.refuse` and nothing more, and a command that is not refused raises no CMD_ERR. -/
theorem refusedCommandOnlySetsCmdErr : Obligations.RefusedCommandOnlySetsCmdErr := by
  refine ⟨fun s w rest hin hrst hillegal => ?_, fun i s h => ?_, fun i s t hnot h => exec_raisesNoCmdErr hnot h⟩
  · rw [step_of_cmdWrite hin hrst, issueCommand_of_illegal _ hillegal, State.refuse_eq]
  · rw [exec_of_refused h, State.refuse_eq]

end Sys2Proof.Machine
end

section
/-! PROOF. The validations (R121 to R125): each issue's condition on the registers, and the bits of the two words. -/

namespace Sys2Proof.Machine

open Sys2Proof

/-! One equivalence per issue: its flag is exact arithmetic on the quantities of the registers (R31, R123 to R125). -/

theorem tonesOk_iff (st : Settings) : st.tonesOk = true ↔ 1 ≤ st.tonesLog2 ∧ st.tonesLog2 ≤ 4 := by
  simp only [Settings.tonesOk, Bool.and_eq_true, decide_eq_true_eq]

theorem issueAmplitude_iff (st : Settings) : issueAmplitude st = true ↔ 32768 < st.amplitude.toNat :=
  decide_eq_true_iff

theorem issueBitDuration_iff (st : Settings) : issueBitDuration st = true ↔ st.nb = 0 := beq_iff_eq

/-- R123: the highest tone is the sync tone, which is tone M. -/
theorem issueNyquist_iff (st : Settings) :
    issueNyquist st = true ↔ st.fs = 0 ∨ ((1 ≤ st.tonesLog2 ∧ st.tonesLog2 ≤ 4) ∧
      st.fs ≤ 2 * (st.baseFreq.toNat + st.freqSep.toNat * 2 ^ st.tonesLog2)) := by
  have hsync : st.tone st.m = st.baseFreq.toNat + st.freqSep.toNat * 2 ^ st.tonesLog2 :=
    congrArg (st.baseFreq.toNat + ·) (Nat.mul_comm _ _)
  rw [← hsync]
  simp only [issueNyquist, Bool.or_eq_true, beq_iff_eq, Bool.and_eq_true, tonesOk_iff, decide_eq_true_eq]

theorem issueEcLevel_iff (st : Settings) : issueEcLevel st = true ↔ st.ecField.toNat = 3 :=
  beq_iff_eq.trans BitVec.toNat_eq

theorem issueTones_iff (st : Settings) : issueTones st = true ↔ ¬(1 ≤ st.tonesLog2 ∧ st.tonesLog2 ≤ 4) := by
  rw [← tonesOk_iff, issueTones, Bool.not_eq_true', Bool.not_eq_true]

theorem issueSensitivity_iff (st : Settings) : issueSensitivity st = true ↔ st.sensitivity.toNat = 3 :=
  beq_iff_eq.trans BitVec.toNat_eq

theorem issueWinFunc_iff (st : Settings) : issueWinFunc st = true ↔ 3 < st.winFunc.toNat := decide_eq_true_iff

theorem issueWinSize_iff (st : Settings) : issueWinSize st = true ↔ 4 < st.winSize := decide_eq_true_iff

theorem issueRedundancy_iff (st : Settings) :
    issueRedundancy st = true ↔ st.ecField.toNat = 1 ∧ st.redundancy.toNat % 2 = 0 := by
  have hbasic : st.ecField = 1 ↔ st.ecField.toNat = 1 := BitVec.toNat_eq
  simp only [issueRedundancy, Bool.and_eq_true, beq_iff_eq, hbasic]

theorem issueFreqSep_iff (st : Settings) : issueFreqSep st = true ↔ st.freqSep.toNat = 0 :=
  beq_iff_eq.trans BitVec.toNat_eq

theorem issueFade_iff (st : Settings) : issueFade st = true ↔ st.ne < st.nfi + st.nfo := decide_eq_true_iff

theorem issueTxLength_iff (p : Params) (st : Settings) : issueTxLength p st = true ↔ p.maxLen < st.txLen.toNat :=
  decide_eq_true_iff

theorem issueWindowFit_iff (st : Settings) :
    issueWindowFit st = true ↔ st.winSize ≤ 4 ∧ st.nb < st.winN + 2 * st.hop := by
  simp only [issueWindowFit, Bool.and_eq_true, decide_eq_true_eq]

/-- R125: the tones below the sync tone are each compared with their successor. -/
theorem issueBinCollision_iff (st : Settings) :
    issueBinCollision st = true ↔ st.winSize ≤ 4 ∧ (1 ≤ st.tonesLog2 ∧ st.tonesLog2 ≤ 4) ∧ 0 < st.fs ∧
      ∃ k, k < st.m ∧ binOf st.fs st.winN (st.tone k) = binOf st.fs st.winN (st.tone (k + 1)) := by
  simp only [issueBinCollision, Bool.and_eq_true, decide_eq_true_eq, tonesOk_iff, List.any_eq_true, List.mem_range,
    beq_iff_eq, and_assoc]

theorem issueHistDepth_iff (p : Params) (st : Settings) :
    issueHistDepth p st = true ↔
      st.winSize ≤ 4 ∧ 0 < st.slotLen ∧ p.syncHistDepth < slotFrame st.slotLen st.hop 12 + 2 := by
  simp only [issueHistDepth, Bool.and_eq_true, decide_eq_true_eq, and_assoc]

/-! The words: one flag in each defined bit, and no other bit (R124, R125). -/

theorem issuesTx_bits (p : Params) (st : Settings) :
    (issuesTx p st).getLsbD 0 = issueAmplitude st ∧ (issuesTx p st).getLsbD 1 = issueBitDuration st ∧
    (issuesTx p st).getLsbD 2 = issueNyquist st ∧ (issuesTx p st).getLsbD 3 = issueEcLevel st ∧
    (issuesTx p st).getLsbD 4 = issueTones st ∧ (issuesTx p st).getLsbD 8 = issueRedundancy st ∧
    (issuesTx p st).getLsbD 9 = issueFreqSep st ∧ (issuesTx p st).getLsbD 10 = issueFade st ∧
    (issuesTx p st).getLsbD 11 = issueTxLength p st := by
  simp [getLsbD_issuesTx, -BitVec.getLsbD_eq_getElem]

theorem getLsbD_issuesTx_of_not_mem (p : Params) (st : Settings) {k : Nat}
    (hk : k ∉ [0, 1, 2, 3, 4, 8, 9, 10, 11]) : (issuesTx p st).getLsbD k = false := by
  by_cases hlt : k < 32
  · simp only [List.mem_cons, List.not_mem_nil, or_false, not_or, ne_comm (a := k)] at hk
    simp [getLsbD_issuesTx p st k hlt, hk]
  · exact BitVec.getLsbD_of_ge _ _ (by omega)

theorem issuesRx_bits (p : Params) (st : Settings) :
    (issuesRx p st).getLsbD 1 = issueBitDuration st ∧ (issuesRx p st).getLsbD 2 = issueNyquist st ∧
    (issuesRx p st).getLsbD 3 = issueEcLevel st ∧ (issuesRx p st).getLsbD 4 = issueTones st ∧
    (issuesRx p st).getLsbD 5 = issueSensitivity st ∧ (issuesRx p st).getLsbD 6 = issueWinFunc st ∧
    (issuesRx p st).getLsbD 7 = issueWinSize st ∧ (issuesRx p st).getLsbD 8 = issueRedundancy st ∧
    (issuesRx p st).getLsbD 9 = issueFreqSep st ∧ (issuesRx p st).getLsbD 12 = issueWindowFit st ∧
    (issuesRx p st).getLsbD 13 = issueBinCollision st ∧ (issuesRx p st).getLsbD 14 = issueHistDepth p st ∧
    (issuesRx p st).getLsbD 31 = true := by
  simp [getLsbD_issuesRx, -BitVec.getLsbD_eq_getElem]

theorem getLsbD_issuesRx_of_not_mem (p : Params) (st : Settings) {k : Nat}
    (hk : k ∉ [1, 2, 3, 4, 5, 6, 7, 8, 9, 12, 13, 14, 31]) : (issuesRx p st).getLsbD k = false := by
  by_cases hlt : k < 32
  · simp only [List.mem_cons, List.not_mem_nil, or_false, not_or, ne_comm (a := k)] at hk
    simp [getLsbD_issuesRx p st k hlt, hk]
  · exact BitVec.getLsbD_of_ge _ _ (by omega)

/-- Settles O17: the word is `issuesTx`, whose every bit is an issue's flag or 0. -/
theorem validateTxReportsEveryIssue : Obligations.ValidateTxReportsEveryIssue := by
  intro s
  obtain ⟨h0, h1, h2, h3, h4, h8, h9, h10, h11⟩ := issuesTx_bits s.params s.settings
  refine ⟨issuesTx s.params s.settings, rfl, rfl, ?_⟩
  rw [h0, h1, h2, h3, h4, h8, h9, h10, h11]
  exact ⟨issueAmplitude_iff _, issueBitDuration_iff _, issueNyquist_iff _, issueEcLevel_iff _, issueTones_iff _,
    issueRedundancy_iff _, issueFreqSep_iff _, issueFade_iff _, issueTxLength_iff _ _,
    fun _ hk => getLsbD_issuesTx_of_not_mem _ _ hk⟩

/-- Settles O18: the word is `issuesRx`, whose every bit is an issue's flag, KIND or 0. -/
theorem validateRxReportsEveryIssue : Obligations.ValidateRxReportsEveryIssue := by
  intro s
  obtain ⟨h1, h2, h3, h4, h5, h6, h7, h8, h9, h12, h13, h14, h31⟩ := issuesRx_bits s.params s.settings
  refine ⟨issuesRx s.params s.settings, rfl, rfl, ?_⟩
  rw [h1, h2, h3, h4, h5, h6, h7, h8, h9, h12, h13, h14]
  exact ⟨issueBitDuration_iff _, issueNyquist_iff _, issueEcLevel_iff _, issueTones_iff _, issueSensitivity_iff _,
    issueWinFunc_iff _, issueWinSize_iff _, issueRedundancy_iff _, issueFreqSep_iff _, issueWindowFit_iff _,
    issueBinCollision_iff _, issueHistDepth_iff _ _, h31, fun _ hk => getLsbD_issuesRx_of_not_mem _ _ hk⟩

end Sys2Proof.Machine
end

section
/-! PROOF. NOP, RES_POP and SOFT_RESET (R120, R128, R129): the state each leaves, and what the registers then show. -/

namespace Sys2Proof.Machine

open Sys2Proof

/-- Settles O16: NOP is the zero word, and a word with an operand bit set is not NOP. -/
theorem nopChangesNothing : Obligations.NopChangesNothing :=
  ⟨fun _ => rfl, decode_encode .nop, decode_of_mbzField_ne_zero (by decide), fun s h => ⟨s, rfl, h⟩⟩

/-- R128: RES_POP drops the head of a non-empty FIFO. -/
theorem exec_resPop_of_cons {s : State} {e : ResultEntry} {rest : List ResultEntry} (h : s.fifo = e :: rest) :
    exec .resPop s = .next { s with fifo := rest } := by
  simp only [exec, execResPop, h]

theorem eq_of_exec_resPop {s t : State} {e : ResultEntry} {rest : List ResultEntry} (hf : s.fifo = e :: rest)
    (h : exec .resPop s = .next t) : t = { s with fifo := rest } := by
  rw [exec_resPop_of_cons hf] at h
  injection h with h
  exact h.symm

/-- R128: RES_POP on an empty FIFO is refused. -/
theorem exec_resPop_of_nil {s : State} (h : s.fifo = []) : exec .resPop s = .next s.refuse :=
  exec_of_refused (.inr (.inr (.inr ⟨rfl, h⟩)))

/-- R27: RES_COUNT is the number of results in the FIFO. -/
theorem State.readReg_status_resCount (s : State) :
    (s.readReg .status).extractLsb' 20 4 = BitVec.ofNat 4 s.fifo.length := by
  obtain ⟨-, -, -, -, -, -, -, -, -, -, hcount, -⟩ := s.statusWord_fields
  exact hcount

/-- Settles O19: RES_POP leaves the rest of the FIFO, which the result registers show, or refuses. -/
theorem resPopRemovesTheHead : Obligations.ResPopRemovesTheHead := by
  refine ⟨fun s e rest h => exec_resPop_of_cons h, fun s e e' rest t h ht => ?shown, fun s e e' t h ht => ?count,
    fun s h => ?refused⟩
  case shown =>
    obtain rfl := eq_of_exec_resPop h ht
    rfl
  case count =>
    obtain rfl := eq_of_exec_resPop h ht
    exact State.readReg_status_resCount _
  case refused => rw [exec_resPop_of_nil h, State.refuse_eq]

/-- R283: with no event pending `irq` is 0, whatever is enabled. -/
theorem State.irq_of_irqStatus_eq_zero {s : State} (h : s.irqStatus = 0) : s.irq = false := by
  simp [State.irq, h]

/-- R304: SOFT_RESET leaves what the reset step leaves, but for the settings, IRQ_ENABLE and the memories, and for the
model's own counter and level. -/
theorem exec_softReset_eq_hardReset {s : State} (hrst : s.rstAsserted = false) :
    exec .softReset s = .next
      { s.hardReset with
        settings := s.settings, irqEnable := s.irqEnable, txRam := s.txRam, mag := s.mag
        resets := s.resets, rstAsserted := false } := by
  rw [← hrst]
  rfl

/-- Settles O20: SOFT_RESET writes reset values where the reset step does, so the two agree on all it does not keep. -/
theorem softResetKeepsTheSettings : Obligations.SoftResetKeepsTheSettings := by
  have hstatus : State.reset.readReg .status = 0 := by decide
  refine ⟨fun s => ⟨_, rfl, rfl, State.irq_of_irqStatus_eq_zero rfl, hstatus⟩, fun s t rest hin hrst hstep => ?_⟩
  rw [step_of_inputs hrst hin] at hstep
  injection hstep with ht
  subst ht
  exact exec_softReset_eq_hardReset hrst

end Sys2Proof.Machine
end

section
/-! PROOF. Decoding a coded sequence part by part (R155 to R157, R159): each decoder decodes a first part by itself and
goes on from there with the corrections made so far, so the header's decode agrees with the body's. -/

namespace Sys2Proof.Machine

open Sys2Proof

/-- Decoding that goes on after a first part: `k` decodes the rest, given the corrections made so far. -/
def EcResult.andThen (first : EcResult) (k : Nat → EcResult) : EcResult :=
  match first with
  | .decoded bits c => consBits bits (k c)
  | .unrecoverable c => .unrecoverable c

@[simp] theorem EcResult.andThen_decoded (bits : List Bool) (c : Nat) (k : Nat → EcResult) :
    (EcResult.decoded bits c).andThen k = consBits bits (k c) := rfl

@[simp] theorem EcResult.andThen_unrecoverable (c : Nat) (k : Nat → EcResult) :
    (EcResult.unrecoverable c).andThen k = .unrecoverable c := rfl

@[simp] theorem consBits_nil (e : EcResult) : consBits [] e = e := by cases e <;> rfl

theorem consBits_andThen (bits : List Bool) (e : EcResult) (k : Nat → EcResult) :
    (consBits bits e).andThen k = consBits bits (e.andThen k) := by
  cases e with
  | unrecoverable c => rfl
  | decoded rest c => cases h : k c <;> simp [h]

/-- Bits in front of a decoded part are decoded bits: the part behind them was decoded too. -/
theorem consBits_eq_decoded {bits out : List Bool} {e : EcResult} {c : Nat} (h : consBits bits e = .decoded out c) :
    ∃ rest, e = .decoded rest c ∧ out = bits ++ rest := by
  cases e with
  | unrecoverable _ => cases h
  | decoded rest _ =>
    injection h with hbits hc
    exact ⟨rest, by rw [hc], hbits.symm⟩

/-- R157: a block with a double error ends the decode. -/
theorem decodeAdvanced_succ_of_none {g : Nat} {cb : List CodedBit} {corrected : Nat}
    (h : decodeBlock ((cb.take 8).map CodedBit.orZero) = none) :
    decodeAdvanced (g + 1) cb corrected = .unrecoverable corrected := by
  simp only [decodeAdvanced, h]

/-- R157: a block with at most one error gives its nibble, before the rest. -/
theorem decodeAdvanced_succ_of_some {g : Nat} {cb : List CodedBit} {corrected : Nat} {nibble : List Bool} {c : Nat}
    (h : decodeBlock ((cb.take 8).map CodedBit.orZero) = some (nibble, c)) :
    decodeAdvanced (g + 1) cb corrected = consBits nibble (decodeAdvanced g (cb.drop 8) (corrected + c)) := by
  simp only [decodeAdvanced, h]

/-- R155: level none decodes two parts one after the other. -/
theorem decodeNone_append (l l' : List CodedBit) :
    decodeNone (l ++ l') = (decodeNone l).andThen fun _ => decodeNone l' := by
  by_cases hl : CodedBit.erased ∈ l
  · rw [decodeNone_erased _ (List.mem_append_left _ hl), decodeNone_erased _ hl, EcResult.andThen_unrecoverable]
  · obtain ⟨bits, rfl⟩ := exists_bits_of_not_erased l hl
    by_cases hl' : CodedBit.erased ∈ l'
    · rw [decodeNone_erased _ (List.mem_append_right _ hl'), decodeNone_erased _ hl', decodeNone_bits]
      rfl
    · obtain ⟨bits', rfl⟩ := exists_bits_of_not_erased l' hl'
      rw [← List.map_append]
      simp only [decodeNone_bits, EcResult.andThen_decoded, consBits_decoded]

/-- R156: level basic decodes the first `g` groups, then goes on with the rest. -/
theorem decodeBasic_add (r g h : Nat) (l rest : List CodedBit) (corrected : Nat) (hl : l.length = r * g) :
    decodeBasic r (g + h) (l ++ rest) corrected = (decodeBasic r g l corrected).andThen (decodeBasic r h rest) := by
  induction g generalizing l corrected with
  | zero =>
    obtain rfl : l = [] := List.length_eq_zero_iff.1 hl
    simp [decodeBasic]
  | succ g ih =>
    have hr : r ≤ l.length := by rw [hl]; exact Nat.le_mul_of_pos_right r g.succ_pos
    have hdrop : (l.drop r).length = r * g := by rw [List.length_drop, hl, Nat.mul_succ, Nat.add_sub_cancel]
    rw [Nat.succ_add_eq_add_succ, Nat.add_succ]
    simp only [decodeBasic, List.take_append_of_le_length hr, List.drop_append_of_le_length hr, ih _ _ hdrop]
    split
    · rfl
    · rw [consBits_andThen]

/-- R157: level advanced decodes the first `g` blocks, then goes on with the rest. -/
theorem decodeAdvanced_add (g h : Nat) (l rest : List CodedBit) (corrected : Nat) (hl : l.length = 8 * g) :
    decodeAdvanced (g + h) (l ++ rest) corrected = (decodeAdvanced g l corrected).andThen (decodeAdvanced h rest) := by
  induction g generalizing l corrected with
  | zero =>
    obtain rfl : l = [] := List.length_eq_zero_iff.1 hl
    simp [decodeAdvanced]
  | succ g ih =>
    have h8 : 8 ≤ l.length := by omega
    have hdrop : (l.drop 8).length = 8 * g := by rw [List.length_drop]; omega
    rw [Nat.succ_add_eq_add_succ, Nat.add_succ]
    have htake : (l ++ rest).take 8 = l.take 8 := List.take_append_of_le_length h8
    cases hb : decodeBlock ((l.take 8).map CodedBit.orZero) with
    | none =>
      rw [decodeAdvanced_succ_of_none (htake ▸ hb), decodeAdvanced_succ_of_none hb, EcResult.andThen_unrecoverable]
    | some p =>
      rw [decodeAdvanced_succ_of_some (htake ▸ hb), decodeAdvanced_succ_of_some hb,
        List.drop_append_of_le_length h8, ih _ _ hdrop, consBits_andThen]

theorem decodeBasic_corrected_le (r : Nat) {g : Nat} {cb : List CodedBit} {c c' : Nat} {bits : List Bool}
    (h : decodeBasic r g cb c = .decoded bits c') : c ≤ c' := by
  induction g generalizing cb c bits with
  | zero =>
    injection h with _ hc
    exact hc.le
  | succ g ih =>
    simp only [decodeBasic] at h
    split at h
    · cases h
    · obtain ⟨rest, hrest, -⟩ := consBits_eq_decoded h
      have := ih hrest
      omega

theorem decodeAdvanced_corrected_le {g : Nat} {cb : List CodedBit} {c c' : Nat} {bits : List Bool}
    (h : decodeAdvanced g cb c = .decoded bits c') : c ≤ c' := by
  induction g generalizing cb c bits with
  | zero =>
    injection h with _ hc
    exact hc.le
  | succ g ih =>
    cases hb : decodeBlock ((cb.take 8).map CodedBit.orZero) with
    | none =>
      rw [decodeAdvanced_succ_of_none hb] at h
      cases h
    | some p =>
      rw [decodeAdvanced_succ_of_some hb] at h
      obtain ⟨rest, hrest, -⟩ := consBits_eq_decoded h
      have := ih hrest
      omega

/-- R159: what the decode `first` of a first part and the decode `whole` say of each other. -/
def FirstPartAgrees (n : Nat) (first whole : EcResult) : Prop :=
  (∀ bits c, whole = .decoded bits c → ∃ hc, hc ≤ c ∧ first = .decoded (bits.take n) hc) ∧
    ∀ hc, first = .unrecoverable hc → whole = .unrecoverable hc

/-- A first part of `n` bits agrees with any decode that goes on from it and takes no correction back. -/
theorem firstPartAgrees_andThen {n : Nat} {first : EcResult} {k : Nat → EcResult}
    (hlen : ∀ bits c, first = .decoded bits c → bits.length = n)
    (hk : ∀ bits c, first = .decoded bits c → ∀ rest c', k c = .decoded rest c' → c ≤ c') :
    FirstPartAgrees n first (first.andThen k) := by
  cases first with
  | unrecoverable _ => exact ⟨fun _ _ h => (nomatch h), fun _ h => h⟩
  | decoded hb hc =>
    refine ⟨fun bits c h => ?_, fun _ h => nomatch h⟩
    obtain ⟨rest, hrest, rfl⟩ := consBits_eq_decoded h
    exact ⟨hc, hk hb hc rfl rest c hrest, by rw [List.take_left' (hlen hb hc rfl)]⟩

theorem codedLen_le {m n : Nat} (ec : EcLevel) (r : Nat) (h : m ≤ n) : codedLen ec r m ≤ codedLen ec r n := by
  cases ec with
  | none => exact h
  | basic => exact Nat.mul_le_mul_left r h
  | advanced => exact Nat.mul_le_mul_left 2 h

/-- R159: the decode of `m` bits' coded bits agrees with the decode of `m + n` bits that begin with them. -/
theorem ecDecode_firstPartAgrees (ec : EcLevel) (r m n : Nat) (l l' : List CodedBit) (hm : 4 ∣ m)
    (hl : l.length = codedLen ec r m) : FirstPartAgrees m (ecDecode ec r m l) (ecDecode ec r (m + n) (l ++ l')) := by
  have hlen : ∀ bits c, ecDecode ec r m l = .decoded bits c → bits.length = m := fun _ _ => ecDecode_length hm hl
  cases ec with
  | none =>
    have hwhole : ecDecode .none r (m + n) (l ++ l') = (ecDecode .none r m l).andThen fun _ => decodeNone l' :=
      decodeNone_append l l'
    have hzero : ∀ bits c, ecDecode .none r m l = .decoded bits c → c = 0 := by
      intro bits c h
      simp only [ecDecode, decodeNone] at h
      split at h
      · injection h with _ hc
        exact hc.symm
      · cases h
    rw [hwhole]
    exact firstPartAgrees_andThen hlen fun bits c h _ _ _ => by simp [hzero bits c h]
  | basic =>
    have hwhole : ecDecode .basic r (m + n) (l ++ l') = (ecDecode .basic r m l).andThen (decodeBasic r n l') :=
      decodeBasic_add r m n l l' 0 hl
    rw [hwhole]
    exact firstPartAgrees_andThen hlen fun _ _ _ _ _ => decodeBasic_corrected_le r
  | advanced =>
    have hblocks : l.length = 8 * (m / 4) := by
      simp only [codedLen] at hl
      omega
    have hwhole : ecDecode .advanced r (m + n) (l ++ l') =
        (ecDecode .advanced r m l).andThen (decodeAdvanced (n / 4) l') := by
      simp only [ecDecode, Nat.add_div_of_dvd_right hm]
      exact decodeAdvanced_add _ _ l l' 0 hblocks
    rw [hwhole]
    exact firstPartAgrees_andThen hlen fun _ _ _ _ _ => decodeAdvanced_corrected_le

/-- Settles O45: the header is the first part of the body, 24 bits and so whole nibbles. -/
theorem headerDecodeAgreesWithTheBody : Obligations.HeaderDecodeAgreesWithTheBody := by
  intro ec r n cb hn hdvd hlen
  have hhead : (cb.take (codedLen ec r 24)).length = codedLen ec r 24 := by
    rw [List.length_take, hlen]
    exact Nat.min_eq_left (codedLen_le ec r hn)
  have hagrees : FirstPartAgrees 24 (ecDecode ec r 24 (cb.take (codedLen ec r 24))) (ecDecode ec r n cb) := by
    have h := ecDecode_firstPartAgrees ec r 24 (n - 24) _ (cb.drop (codedLen ec r 24)) (by decide) hhead
    rwa [Nat.add_sub_cancel' hn, List.take_append_drop] at h
  obtain ⟨hdecoded, hunrecoverable⟩ := hagrees
  exact ⟨fun bits c h => ⟨ecDecode_length hdvd hlen h, hdecoded bits c h⟩, hunrecoverable⟩

end Sys2Proof.Machine
end

section
/-! PROOF. Levels none and basic (R155, R156): erasures, the majority vote and the corrections it counts. -/

namespace Sys2Proof.Machine

open Sys2Proof Sys2Proof.Safety

/-- R156: the copies outvoted in groups that vote for `bits`. -/
def outvotedCopies (bits : List Bool) (groups : List (List CodedBit)) : Nat :=
  (List.zipWith (fun b grp => grp.count (CodedBit.bit (!b))) bits groups).sum

@[simp] theorem outvotedCopies_nil : outvotedCopies [] [] = 0 := rfl

@[simp] theorem outvotedCopies_cons (b : Bool) (bits : List Bool) (grp : List CodedBit)
    (groups : List (List CodedBit)) :
    outvotedCopies (b :: bits) (grp :: groups) = grp.count (.bit (!b)) + outvotedCopies bits groups := by
  simp [outvotedCopies]

theorem flatten_length_of_votes {r : Nat} {bits : List Bool} {groups : List (List CodedBit)}
    (h : List.Forall₂ (votesFor r) bits groups) : groups.flatten.length = r * bits.length := by
  induction h with
  | nil => rfl
  | cons hv _ ih =>
    obtain ⟨hlen, -⟩ := hv
    rw [List.flatten_cons, List.length_append, hlen, ih, List.length_cons, Nat.mul_succ, Nat.add_comm]

/-- R156: groups that vote for `bits` decode to them, each copy outvoted being a correction. -/
theorem decodeBasic_of_votes {r : Nat} {bits : List Bool} {groups : List (List CodedBit)} (corrected : Nat)
    (h : List.Forall₂ (votesFor r) bits groups) :
    decodeBasic r bits.length groups.flatten corrected = .decoded bits (corrected + outvotedCopies bits groups) := by
  induction h generalizing corrected with
  | nil => rfl
  | cons hv _ ih =>
    obtain ⟨hlen, hmajority⟩ := hv
    rw [List.length_cons, List.flatten_cons, decodeBasic_group _ _ _ _ _ _ hlen hmajority, ih, consBits_decoded,
      outvotedCopies_cons, Nat.add_assoc, List.singleton_append]

/-- R156: a tie after groups that vote is unrecoverable, with the corrections made in those groups. -/
theorem decodeBasic_tie_after_votes {r n : Nat} {bits : List Bool} {groups : List (List CodedBit)}
    {tie : List CodedBit} (rest : List CodedBit) (h : List.Forall₂ (votesFor r) bits groups) (hlen : tie.length = r)
    (htie : tie.count (.bit true) = tie.count (.bit false)) (hn : bits.length < n) :
    decodeBasic r n (groups.flatten ++ tie ++ rest) 0 = .unrecoverable (outvotedCopies bits groups) := by
  obtain ⟨k, rfl⟩ : ∃ k, n = bits.length + (k + 1) := ⟨n - bits.length - 1, by omega⟩
  rw [List.append_assoc, decodeBasic_add _ _ _ _ _ _ (flatten_length_of_votes h), decodeBasic_of_votes 0 h,
    EcResult.andThen_decoded, decodeBasic_tie _ _ _ _ _ hlen htie, consBits_unrecoverable, Nat.zero_add]

/-- Settles O44: an erasure or its absence decides level none; the votes of the groups in order decide level basic. -/
theorem noneAndBasicLevelDecode : Obligations.NoneAndBasicLevelDecode := by
  refine ⟨fun _ _ cb h => decodeNone_erased cb h, fun _ _ cb h => ?bits, fun r bits groups h => ?votes,
    fun r n bits groups tie rest h hlen htie hn => decodeBasic_tie_after_votes rest h hlen htie hn,
    by decide, by decide, by decide⟩
  case bits =>
    obtain ⟨bits, rfl⟩ := exists_bits_of_not_erased cb h
    exact ⟨bits, rfl, decodeNone_bits bits⟩
  case votes =>
    have hdec := decodeBasic_of_votes 0 h
    rwa [Nat.zero_add] at hdec

end Sys2Proof.Machine
end

section
/-! PROOF. Level advanced (R157, R158): one error in a block is corrected and counted, two are unrecoverable. -/

namespace Sys2Proof.Machine

open Sys2Proof Sys2Proof.Safety

@[simp] theorem invertAt_length (l : List Bool) (p : Nat) : (invertAt l p).length = l.length := by simp [invertAt]

/-- R157: two bits inverted in a codeword leave the overall parity even and the syndrome not zero. -/
theorem decodeBlock_two_errors : ∀ (a b c d : Bool) (p q : Fin 8), p ≠ q →
    decodeBlock (invertAt (invertAt (codeword a b c d) p) q) = none := by
  decide

/-- A codeword with at most one bit inverted is one block before the rest, which decodes to its nibble and counts that
error. -/
theorem corruptBlocks_codeword (errors : List (Option (Fin 8))) (a b c d : Bool) (cb : List Bool) :
    ∃ blk k errors', corruptBlocks errors (codeword a b c d ++ cb) = blk ++ corruptBlocks errors' cb ∧
      blk.length = 8 ∧ decodeBlock blk = some ([a, b, c, d], k) ∧
      errors.countP Option.isSome = k + errors'.countP Option.isSome ∧ errors'.length = errors.length - 1 := by
  have htake : (codeword a b c d ++ cb).take 8 = codeword a b c d := List.take_left' (codeword_length a b c d)
  have hdrop : (codeword a b c d ++ cb).drop 8 = cb := List.drop_left' (codeword_length a b c d)
  match errors with
  | [] => exact ⟨_, 0, [], rfl, rfl, decodeBlock_codeword a b c d, rfl, rfl⟩
  | none :: es =>
    exact ⟨_, 0, es, by rw [corruptBlocks, htake, hdrop], rfl, decodeBlock_codeword a b c d, by simp, rfl⟩
  | some p :: es =>
    exact ⟨invertAt (codeword a b c d) p, 1, es, by rw [corruptBlocks, htake, hdrop], by simp,
      decodeBlock_one_error a b c d p, by simp [Nat.add_comm], rfl⟩

theorem corruptBlocks_length (errors : List (Option (Fin 8))) (cb : List Bool) :
    (corruptBlocks errors cb).length = cb.length := by
  induction errors generalizing cb with
  | nil => rfl
  | cons e es ih =>
    have h : (cb.take 8).length + (cb.drop 8).length = cb.length := by
      rw [← List.length_append, List.take_append_drop]
    cases e <;> simpa [corruptBlocks, ih] using h

/-- R157, R158: with at most one bit inverted in each block, the body is recovered and the errors are counted. -/
theorem decodeAdvanced_corruptBlocks (f : List Bool) (errors : List (Option (Fin 8))) (corrected : Nat)
    (hf : 4 ∣ f.length) (herr : errors.length ≤ f.length / 4) :
    decodeAdvanced (f.length / 4) ((corruptBlocks errors (encodeAdvanced f)).map CodedBit.bit) corrected =
      .decoded f (corrected + errors.countP Option.isSome) := by
  induction f using encodeAdvanced.induct generalizing errors corrected with
  | case1 a b c d rest ih =>
    obtain ⟨blk, k, errors', hsplit, hblk, hdec, hcount, hlen⟩ :=
      corruptBlocks_codeword errors a b c d (encodeAdvanced rest)
    have hblocks : (a :: b :: c :: d :: rest).length / 4 = rest.length / 4 + 1 := by
      simp only [List.length_cons]
      omega
    have hrest : 4 ∣ rest.length := by
      simp only [List.length_cons] at hf
      omega
    rw [hblocks, encodeAdvanced, hsplit, List.map_append, decodeAdvanced_block _ _ _ _ hblk, hdec]
    simp only
    rw [ih errors' _ hrest (by omega), hcount, consBits_decoded, Nat.add_assoc]
    rfl
  | case2 l hne =>
    rcases nibbles_cases l hf with rfl | ⟨a, b, c, d, rest, rfl, -⟩
    · obtain rfl : errors = [] := List.length_eq_zero_iff.1 (Nat.le_zero.1 herr)
      rfl
    · exact absurd rfl (hne a b c d rest)

/-- Settles O42: induction over the blocks, each of which decodes to its nibble. -/
theorem advancedCorrectsOneErrorPerBlock : Obligations.AdvancedCorrectsOneErrorPerBlock := by
  intro f errors hf herr
  have h := decodeAdvanced_corruptBlocks f errors 0 hf herr
  rwa [Nat.zero_add] at h

/-- R157: a double error after blocks with at most one error each is unrecoverable, with the corrections so far. -/
theorem decodeAdvanced_double_error_after {f : List Bool} {errors : List (Option (Fin 8))} {blk : List Bool}
    (rest : List CodedBit) (k : Nat) (hf : 4 ∣ f.length) (herr : errors.length ≤ f.length / 4)
    (hlen : blk.length = 8) (hblk : decodeBlock blk = none) :
    decodeAdvanced (f.length / 4 + (k + 1))
        ((corruptBlocks errors (encodeAdvanced f)).map CodedBit.bit ++ blk.map CodedBit.bit ++ rest) 0 =
      .unrecoverable (errors.countP Option.isSome) := by
  have hfirst : ((corruptBlocks errors (encodeAdvanced f)).map CodedBit.bit).length = 8 * (f.length / 4) := by
    rw [List.length_map, corruptBlocks_length, encodeAdvanced_length f hf]
    omega
  rw [List.append_assoc, decodeAdvanced_add _ _ _ _ _ hfirst, decodeAdvanced_corruptBlocks f errors 0 hf herr,
    EcResult.andThen_decoded, decodeAdvanced_block _ _ _ _ hlen, hblk, Nat.zero_add]
  rfl

/-- R157: level advanced reads the coded bits with an erased one as 0. -/
theorem decodeAdvanced_congr (g : Nat) {cb cb' : List CodedBit} (corrected : Nat)
    (h : cb.map CodedBit.orZero = cb'.map CodedBit.orZero) :
    decodeAdvanced g cb corrected = decodeAdvanced g cb' corrected := by
  induction g generalizing cb cb' corrected with
  | zero => rfl
  | succ g ih =>
    have htake : (cb.take 8).map CodedBit.orZero = (cb'.take 8).map CodedBit.orZero := by simp only [List.map_take, h]
    have hdrop : (cb.drop 8).map CodedBit.orZero = (cb'.drop 8).map CodedBit.orZero := by simp only [List.map_drop, h]
    cases hb : decodeBlock ((cb'.take 8).map CodedBit.orZero) with
    | none => rw [decodeAdvanced_succ_of_none hb, decodeAdvanced_succ_of_none (htake ▸ hb)]
    | some p => rw [decodeAdvanced_succ_of_some hb, decodeAdvanced_succ_of_some (htake ▸ hb), ih _ hdrop]

theorem CodedBit.orZero_eraseToZero (x : CodedBit) :
    (if x = .erased then CodedBit.bit false else x).orZero = x.orZero := by
  cases x <;> rfl

/-- Settles O43: the blocks before the double error decode, and that block ends the decode. -/
theorem advancedStopsAtADoubleError : Obligations.AdvancedStopsAtADoubleError := by
  refine ⟨fun f errors a b c d p q rest n hf herr hpq hn hdvd => ?double, fun r n cb => ?erased, by decide⟩
  case double =>
    obtain ⟨k, hk⟩ : ∃ k, n / 4 = f.length / 4 + (k + 1) := ⟨n / 4 - f.length / 4 - 1, by omega⟩
    simp only [ecDecode, hk]
    exact decodeAdvanced_double_error_after rest k hf herr (by simp) (decodeBlock_two_errors a b c d p q hpq)
  case erased =>
    refine decodeAdvanced_congr _ 0 ?_
    rw [List.map_map]
    exact List.map_congr_left fun x _ => (CodedBit.orZero_eraseToZero x).symm

end Sys2Proof.Machine
end

section
/-! PROOF. The frame codec end to end (R141 to R153): the body and its CRC, the encoders, and the round trip of R147. -/

namespace Sys2Proof.Machine

open Sys2Proof Sys2Proof.Safety

/-! The frame body (R141 to R145). -/

/-- R143: the CRC takes one byte after another. -/
theorem crc16_concat (l : List Byte) (x : Byte) : crc16 (l ++ [x]) = crcByte (crc16 l) x := by
  simp [crc16, List.foldl_append]

theorem frameBody_length (ec : EcLevel) (c e : Bool) (payload : List Byte) :
    (frameBody ec c e payload).length = 5 + payload.length := by
  simp [frameBody]
  omega

/-- R144: the body begins with the header. -/
theorem exists_frameBody_eq_header_append (ec : EcLevel) (c e : Bool) (payload : List Byte) :
    ∃ tail, frameBody ec c e payload = headerBytes ec c e payload.length ++ tail :=
  ⟨_, List.append_assoc _ _ _⟩

/-- R143, byte by byte, on the bytes of the check value. -/
theorem crcByte_check_steps :
    crcByte 0xFFFF 0x31 = 0xC782 ∧ crcByte 0xC782 0x32 = 0x3DBA ∧ crcByte 0x3DBA 0x33 = 0x5BCE ∧
      crcByte 0x5BCE 0x34 = 0x5349 ∧ crcByte 0x5349 0x35 = 0x4560 ∧ crcByte 0x4560 0x36 = 0x2EF4 ∧
      crcByte 0x2EF4 0x37 = 0x7718 ∧ crcByte 0x7718 0x38 = 0xA12B ∧ crcByte 0xA12B 0x39 = 0x29B1 := by
  decide

theorem crc16_check_value : crc16 [0x31, 0x32, 0x33, 0x34, 0x35, 0x36, 0x37, 0x38, 0x39] = 0x29B1 := by
  simp only [crc16, List.foldl, crcByte_check_steps]

/-- R143, byte by byte, on the header and the payload of R144's example. -/
theorem crcByte_example_steps :
    crcByte 0xFFFF 0x10 = 0xF3C1 ∧ crcByte 0xF3C1 0x00 = 0x1E7C ∧ crcByte 0x1E7C 0x01 = 0x9FDE ∧
      crcByte 0x9FDE 0x41 = 0xF4B3 := by
  decide

theorem crc16_example : crc16 [0x10, 0x00, 0x01, 0x41] = 0xF4B3 := by
  simp only [crc16, List.foldl, crcByte_example_steps]

theorem frameBody_example : frameBody .none false false [0x41] = [0x10, 0x00, 0x01, 0x41, 0xF4, 0xB3] := by
  have hbytes : headerBytes .none false false [(0x41 : Byte)].length ++ [0x41] = [0x10, 0x00, 0x01, 0x41] := by decide
  rw [frameBody, hbytes, withCrc, crc16_example]
  decide

/-- Settles O39: the body is its header, payload and CRC by definition, and its bits are those of its bytes. -/
theorem frameBodyBitsAndCrc : Obligations.FrameBodyBitsAndCrc :=
  ⟨crc16_check_value, rfl, crc16_concat,
    fun ec compressed encrypted payload =>
      ⟨rfl, frameBody_length ec compressed encrypted payload, frameBody_bits_length ec compressed encrypted payload,
        fun i k _ hk => getElem?_bitsOf _ i k hk⟩,
    frameBody_example, rfl⟩

/-! The encoders (R150 to R153). -/

/-- Settles O40: each encoder's equations, its length on whole nibbles, and the sixteen codewords. -/
theorem encodersAndCodedLengths : Obligations.EncodersAndCodedLengths := by
  refine ⟨fun _ _ => rfl, fun _ _ _ => ⟨rfl, rfl⟩, fun _ _ _ _ _ _ => ⟨rfl, rfl⟩, fun ec r f h => ?lengths,
    by decide⟩
  case lengths =>
    rw [ecEncode_length ec r f h]
    cases ec <;> rfl

/-! The round trip (R147). -/

theorem count_replicate_not (r : Nat) (b : Bool) : (List.replicate r (CodedBit.bit b)).count (.bit (!b)) = 0 := by
  cases b <;> simp [List.count_replicate]

/-- R156: an odd number of copies of one bit vote for it. -/
theorem votesFor_replicate {r : Nat} (hr : r % 2 = 1) (b : Bool) : votesFor r b (List.replicate r (.bit b)) := by
  refine ⟨List.length_replicate, ?_⟩
  rw [count_replicate_not, List.count_replicate_self]
  omega

/-- R151: the groups of copies that level basic sends. -/
def sentGroups (r : Nat) (f : List Bool) : List (List CodedBit) := f.map fun b => List.replicate r (.bit b)

theorem map_bit_ecEncode_basic (r : Nat) (f : List Bool) :
    (ecEncode .basic r f).map CodedBit.bit = (sentGroups r f).flatten := by
  simp only [ecEncode, sentGroups, List.map_flatMap, ← List.flatMap_def, List.map_replicate]

theorem sentGroups_votes {r : Nat} (hr : r % 2 = 1) (f : List Bool) :
    List.Forall₂ (votesFor r) f (sentGroups r f) :=
  List.forall₂_map_right_iff.2 (List.forall₂_same.2 fun b _ => votesFor_replicate hr b)

theorem outvotedCopies_sentGroups (r : Nat) (f : List Bool) : outvotedCopies f (sentGroups r f) = 0 := by
  induction f with
  | nil => rfl
  | cons b f ih =>
    rw [sentGroups, List.map_cons, outvotedCopies_cons, count_replicate_not]
    exact (Nat.zero_add _).trans ih

/-- R147: whole nibbles, encoded and received as sent, decode to themselves with no correction. -/
theorem ecDecode_ecEncode (ec : EcLevel) (r : Nat) (f : List Bool) (hr : ec = .basic → r % 2 = 1)
    (hf : 4 ∣ f.length) : ecDecode ec r f.length ((ecEncode ec r f).map CodedBit.bit) = .decoded f 0 := by
  cases ec with
  | none => exact decodeNone_bits f
  | basic =>
    rw [map_bit_ecEncode_basic]
    exact (decodeBasic_of_votes 0 (sentGroups_votes (hr rfl) f)).trans (by rw [outvotedCopies_sentGroups])
  | advanced => exact decodeAdvanced_corruptBlocks f [] 0 hf (Nat.zero_le _)

/-- R147, R159: the coded bits of a first part of whole nibbles decode to it, whatever follows them. -/
theorem ecDecode_take_of_encoded {ec : EcLevel} {r : Nat} {f : List Bool} {cb rest : List CodedBit}
    (hr : ec = .basic → r % 2 = 1) (hf : 4 ∣ f.length) (hcb : cb = (ecEncode ec r f).map CodedBit.bit ++ rest) :
    ecDecode ec r f.length (cb.take (codedLen ec r f.length)) = .decoded f 0 := by
  have hlen : ((ecEncode ec r f).map CodedBit.bit).length = codedLen ec r f.length := by
    rw [List.length_map, ecEncode_length ec r f hf]
  rw [hcb, List.take_left' hlen, ecDecode_ecEncode ec r f hr hf]

/-- R141: the fields of header byte h0. -/
theorem headerByte0_fields (ec : EcLevel) (c e : Bool) :
    (headerByte0 ec c e).extractLsb' 4 4 = 1 ∧ (headerByte0 ec c e).extractLsb' 2 2 = ec.code ∧
      (headerByte0 ec c e).extractLsb' 0 4 = ec.code ++ BitVec.ofBool c ++ BitVec.ofBool e := by
  cases ec <;> revert c e <;> decide

/-- R141: the header's length field holds a 16-bit length. -/
theorem lengthField_toNat {n : Nat} (h : n < 2 ^ 16) :
    256 * (BitVec.ofNat 8 (n / 256)).toNat + (BitVec.ofNat 8 (n % 256)).toNat = n := by
  simp only [BitVec.toNat_ofNat]
  omega

/-- R250 to R252: a header of this version and level, with a length that fits, is accepted. -/
theorem headerStage_of_decoded {maxLen : Nat} {sn : RxSnap} {r : Region} {h0 h1 h2 : Byte} {hc : Nat}
    (hdec : ecDecode sn.ec sn.r 24 (r.cb.take (codedLen sn.ec sn.r 24)) = .decoded (bitsOf [h0, h1, h2]) hc)
    (hversion : h0.extractLsb' 4 4 = 1) (hlevel : h0.extractLsb' 2 2 = sn.ec.code)
    (hlen : 256 * h1.toNat + h2.toNat ≤ maxLen) :
    headerStage maxLen sn r = .goOn
      { r with
        hdr := some { hflags := h0.extractLsb' 0 4, len := 256 * h1.toNat + h2.toNat }
        d := some (cdiv (codedLen sn.ec sn.r (40 + 8 * (256 * h1.toNat + h2.toNat))) sn.b) } := by
  have hbyte : byteOfBits ((bitsOf [h0, h1, h2]).take 8) = h0 := by
    rw [bitsOf_cons, List.take_left' (byteBits_length h0), byteOfBits_byteBits]
  simp only [headerStage, hdec, hbyte, headerLen_bitsOf, hversion, hlevel, ne_eq, not_true_eq_false, if_false,
    Nat.not_lt.2 hlen]

/-- R144: the CRC's two bytes, most significant first, are the CRC. -/
theorem crcBytes_append (c : BitVec 16) : c.extractLsb' 8 8 ++ c.extractLsb' 0 8 = c := by
  rw [BitVec.extractLsb'_append_extractLsb'_eq_extractLsb' (by rfl)]
  exact BitVec.extractLsb'_eq_self

/-- R253, R254: a body within the tolerance whose last two bytes are its CRC is accepted with its payload. -/
theorem bodyCheck_of_withCrc {sn : RxSnap} {r : Region} {head payload : List Byte} {c : Nat}
    (hdec : ecDecode sn.ec sn.r (40 + 8 * payload.length)
      (r.cb.take (codedLen sn.ec sn.r (40 + 8 * payload.length))) = .decoded (bitsOf (withCrc (head ++ payload))) c)
    (hhead : head.length = 3) (htol : c ≤ sn.errTol.toNat) :
    bodyCheck sn r payload.length = .finish r .ok .none c (some payload) := by
  have hlen : (head ++ payload).length = 3 + payload.length := by rw [List.length_append, hhead]
  have hchecked : (withCrc (head ++ payload)).take (3 + payload.length) = head ++ payload := List.take_left' hlen
  have hhigh : (withCrc (head ++ payload)).getD (3 + payload.length) 0 = (crc16 (head ++ payload)).extractLsb' 8 8 := by
    rw [withCrc, List.getD_append_right _ _ _ _ hlen.le, hlen, Nat.sub_self]
    rfl
  have hlow : (withCrc (head ++ payload)).getD (4 + payload.length) 0 = (crc16 (head ++ payload)).extractLsb' 0 8 := by
    rw [withCrc, List.getD_append_right _ _ _ _ (by omega), hlen, Nat.add_sub_add_right]
    rfl
  have hpayload : ((withCrc (head ++ payload)).drop 3).take payload.length = payload := by
    rw [withCrc, List.append_assoc, List.drop_left' hhead, List.take_left]
  simp only [bodyCheck, hdec, bytesOf_bitsOf, hchecked, hhigh, hlow, hpayload, crcBytes_append, Nat.not_lt.2 htol,
    ne_eq, not_true_eq_false, if_false]

/-- Settles O41: the coded body decodes to itself, its first 24 bits are the coded header, and both stages accept. -/
theorem frameCodecRoundTrip : Obligations.FrameCodecRoundTrip := by
  intro maxLen sn compressed encrypted payload pad r hmax hpayload hodd f coded
  have hf : f.length = 40 + 8 * payload.length := frameBody_bits_length sn.ec compressed encrypted payload
  have hdvd : 4 ∣ f.length := by omega
  have hbody : ecDecode sn.ec sn.r (40 + 8 * payload.length) coded = .decoded f 0 :=
    hf ▸ ecDecode_ecEncode sn.ec sn.r f hodd hdvd
  refine ⟨hbody, fun hcb => ⟨?header, ?body⟩⟩
  case header =>
    obtain ⟨hversion, hlevel, hflags⟩ := headerByte0_fields sn.ec compressed encrypted
    have hlen := lengthField_toNat (n := payload.length) (by omega)
    obtain ⟨tail, htail⟩ := exists_frameBody_eq_header_append sn.ec compressed encrypted payload
    have hsplit : r.cb =
        (ecEncode sn.ec sn.r (bitsOf (headerBytes sn.ec compressed encrypted payload.length))).map CodedBit.bit ++
          ((ecEncode sn.ec sn.r (bitsOf tail)).map CodedBit.bit ++ pad) := by
      rw [hcb, ← List.append_assoc, ← List.map_append, ← ecEncode_append _ _ _ _ (by simp), ← bitsOf_append,
        ← htail]
    have hdec := ecDecode_take_of_encoded hodd (by simp) hsplit
    rw [bitsOf_length, headerBytes_length] at hdec
    rw [headerStage_of_decoded hdec hversion hlevel (hlen.le.trans hpayload), hlen, hflags]
  case body =>
    have hdec := ecDecode_take_of_encoded hodd hdvd hcb
    rw [hf] at hdec
    exact bodyCheck_of_withCrc hdec rfl (Nat.zero_le _)

end Sys2Proof.Machine
end

section
/-! PROOF. The TX engine's own steps (R183 to R185): where a sample leaves and where a cancel is due, and what each does
to the engine and the stream. -/

namespace Sys2Proof.Machine

open Sys2Proof Sys2Proof.Safety

theorem State.emitEnabled_iff (s : State) :
    s.emitEnabled = true ↔ s.tx.state = .run ∧ ¬(s.tx.abort = true ∧ s.tx.i = 0) := by
  simp only [State.emitEnabled, Bool.and_eq_true, beq_iff_eq, Bool.not_eq_true', Bool.eq_false_iff, ne_eq]

theorem State.cancelEnabled_iff (s : State) :
    s.cancelEnabled = true ↔ s.tx.state = .run ∧ s.tx.abort = true ∧ s.tx.i = 0 := by
  simp only [State.cancelEnabled, Bool.and_eq_true, beq_iff_eq, and_assoc]

/-! One sample's advance (R183): inside its slot, into the next slot, or past the last. -/

/-- R183: the engine with one more sample counted and the slot's increment on its phase, its position yet to move. -/
def TxEngine.counted (tx : TxEngine) (sn : TxSnap) (sl : Slot) : TxEngine :=
  { tx with phase := tx.phase + sn.inc.getD sl.tone 0, count := tx.count + 1 }

theorem TxEngine.advance_within {tx : TxEngine} {sn : TxSnap} (sl : Slot) (hi : tx.i + 1 ≠ sn.s) :
    tx.advance sn sl = { tx.counted sn sl with i := tx.i + 1 } :=
  if_neg hi

theorem TxEngine.advance_nextSlot {tx : TxEngine} {sn : TxSnap} (sl : Slot) (hi : tx.i + 1 = sn.s)
    (hslot : tx.slot + 1 ≠ tx.plan.length) :
    tx.advance sn sl = { tx.counted sn sl with i := 0, slot := tx.slot + 1 } := by
  simp only [TxEngine.advance, hi, hslot, if_true, if_false]
  rfl

theorem TxEngine.advance_last {tx : TxEngine} {sn : TxSnap} (sl : Slot) (hi : tx.i + 1 = sn.s)
    (hslot : tx.slot + 1 = tx.plan.length) :
    tx.advance sn sl =
      { tx.counted sn sl with i := 0, slot := tx.slot + 1, state := .idle, abort := false, outcome := .ok } := by
  simp only [TxEngine.advance, hi, hslot, if_true]
  rfl

/-- R183, R186: wherever the sample stands in its slot, the advance counts it and keeps the plan and the total. -/
theorem TxEngine.advance_frame (tx : TxEngine) (sn : TxSnap) (sl : Slot) :
    (tx.advance sn sl).phase = tx.phase + sn.inc.getD sl.tone 0 ∧ (tx.advance sn sl).count = tx.count + 1 ∧
      (tx.advance sn sl).plan = tx.plan ∧ (tx.advance sn sl).total = tx.total := by
  by_cases hi : tx.i + 1 = sn.s
  · by_cases hslot : tx.slot + 1 = tx.plan.length
    · rw [TxEngine.advance_last sl hi hslot]
      exact ⟨rfl, rfl, rfl, rfl⟩
    · rw [TxEngine.advance_nextSlot sl hi hslot]
      exact ⟨rfl, rfl, rfl, rfl⟩
  · rw [TxEngine.advance_within sl hi]
    exact ⟨rfl, rfl, rfl, rfl⟩

theorem TxEngine.lastSample_iff (tx : TxEngine) (sn : TxSnap) :
    tx.lastSample sn = true ↔ tx.i + 1 = sn.s ∧ tx.slot + 1 = tx.plan.length := by
  simp only [TxEngine.lastSample, Bool.and_eq_true, beq_iff_eq]

/-! TX-EMIT on a slot of the plan (R183). -/

/-- R183: the state after one sample of slot `sl` under snapshot `sn`, no event raised. -/
def State.sent (s : State) (sn : TxSnap) (sl : Slot) : State :=
  { s with txStream := s.txStream ++ [sampleOf sn sl s.tx.i s.tx.phase], tx := s.tx.advance sn sl }

section
variable {s : State} {sn : TxSnap} {sl : Slot}

theorem State.txEmit_of_slot (hsnap : s.txSnap = some sn) (hslot : s.tx.plan[s.tx.slot]? = some sl) :
    s.txEmit = if s.tx.lastSample sn = true then (s.sent sn sl).setIrq .txDone else s.sent sn sl := by
  simp only [State.txEmit, hsnap, hslot, State.sent]

theorem State.txEmit_more (hsnap : s.txSnap = some sn) (hslot : s.tx.plan[s.tx.slot]? = some sl)
    (hmore : ¬(s.tx.i + 1 = sn.s ∧ s.tx.slot + 1 = s.tx.plan.length)) : s.txEmit = s.sent sn sl := by
  rw [State.txEmit_of_slot hsnap hslot, if_neg (mt (TxEngine.lastSample_iff ..).1 hmore)]

theorem State.txEmit_last (hsnap : s.txSnap = some sn) (hslot : s.tx.plan[s.tx.slot]? = some sl)
    (hi : s.tx.i + 1 = sn.s) (hlast : s.tx.slot + 1 = s.tx.plan.length) :
    s.txEmit = (s.sent sn sl).setIrq .txDone := by
  rw [State.txEmit_of_slot hsnap hslot, if_pos ((TxEngine.lastSample_iff ..).2 ⟨hi, hlast⟩)]

theorem State.txEmit_tx (hsnap : s.txSnap = some sn) (hslot : s.tx.plan[s.tx.slot]? = some sl) :
    s.txEmit.tx = s.tx.advance sn sl := by
  rw [State.txEmit_of_slot hsnap hslot]
  split <;> rfl

theorem State.txEmit_txStream (hsnap : s.txSnap = some sn) (hslot : s.tx.plan[s.tx.slot]? = some sl) :
    s.txEmit.txStream = s.txStream ++ [sampleOf sn sl s.tx.i s.tx.phase] := by
  rw [State.txEmit_of_slot hsnap hslot]
  split <;> rfl

end

/-- R183: the step of a ready sink where TX-EMIT is enabled. -/
theorem step_of_sinkReady {s : State} {rest : List Input} (hin : s.inputs = .sinkReady :: rest)
    (hrst : s.rstAsserted = false) (hen : s.emitEnabled = true) :
    step s = .next (State.txEmit { s with inputs := rest, port := .none }) := by
  rw [step_of_inputs hrst hin]
  exact congrArg Host.Outcome.next (if_pos hen)

/-- Settles O29: the ready sink's step is TX-EMIT, in each of the three places a sample can stand. -/
theorem emitSendsOneSample : Obligations.EmitSendsOneSample := by
  intro s sn sl rest hin hrst hrun hnotdue hsnap hslot y tx1 s1
  have hword : sampleOf sn sl s.tx.i s.tx.phase = BitVec.ofInt 16 y := by
    simp only [sampleOf, sampleValue, Nat.cast_mul, y]
  have hsent (tx : TxEngine) (h : s.tx.advance sn sl = tx) :
      State.sent { s with inputs := rest, port := .none } sn sl = { s1 with tx := tx } := by
    rw [State.sent, h, hword]
  rw [step_of_sinkReady hin hrst (s.emitEnabled_iff.2 ⟨hrun, hnotdue⟩)]
  refine ⟨fun hi => ?within, fun hi hmore => ?next, fun hi hlast => ?last⟩
  case within =>
    rw [State.txEmit_more (s := { s with inputs := rest, port := .none }) hsnap hslot (fun h => hi h.1),
      hsent _ (TxEngine.advance_within sl hi)]
    rfl
  case next =>
    rw [State.txEmit_more (s := { s with inputs := rest, port := .none }) hsnap hslot (fun h => hmore h.2),
      hsent _ (TxEngine.advance_nextSlot sl hi hmore)]
    rfl
  case last =>
    rw [State.txEmit_last (s := { s with inputs := rest, port := .none }) hsnap hslot hi hlast,
      hsent _ (TxEngine.advance_last sl hi hlast)]
    rfl

/-! TX-CANCEL and TX_ABORT (R184, R185). -/

/-- R185, R282: a cancel keeps the counts, the slot and the phase, and sets bit 0 of IRQ_STATUS. -/
theorem State.txCancel_eq (s : State) :
    s.txCancel =
      { s with
        irqStatus := s.irqStatus ||| 0x01
        tx := { s.tx with state := .idle, abort := false, outcome := .cancelled } } := rfl

theorem cancelTurn_of_enabled {s : State} (h : s.cancelEnabled = true) : cancelTurn s = s.txCancel := if_pos h

/-- R185, log 1: on an empty schedule the TX engine takes its turn. -/
theorem step_of_no_inputs {s : State} (hrst : s.rstAsserted = false) (hin : s.inputs = []) :
    step s = .next (cancelTurn { s with port := .none }) := by
  have htake : s.takeInput = { s with port := .none } := by
    simp only [State.takeInput, hin, List.tail_nil]
  simp only [step, hin, htake, idleStep, hrst, Bool.false_eq_true, if_false]

/-- Settles O31: the engine's turn, scheduled or on an empty schedule, is TX-CANCEL where that is enabled. -/
theorem cancelStopsAtASlotBoundary : Obligations.CancelStopsAtASlotBoundary := by
  intro s hrst hrun habort hi
  have hen : s.cancelEnabled = true := s.cancelEnabled_iff.2 ⟨hrun, habort, hi⟩
  refine ⟨fun rest hin => ?_, fun hin => ?_⟩
  · rw [step_of_inputs hrst hin, agentStep, cancelTurn_of_enabled (s := { s with inputs := rest, port := .none }) hen,
      State.txCancel_eq]
  · rw [step_of_no_inputs hrst hin, cancelTurn_of_enabled (s := { s with port := .none }) hen, State.txCancel_eq]

theorem exec_txAbort_run {s : State} (h : s.tx.state = .run) :
    exec .txAbort s = .next { s with tx := { s.tx with abort := true } } :=
  if_pos h

/-- R105: while no transmission runs TX_ABORT is accepted and has no effect. -/
theorem exec_txAbort_idle {s : State} (h : s.tx.state = .idle) : exec .txAbort s = .next s :=
  if_neg (by rw [h]; decide)

/-- Settles O24: the mark enables TX-CANCEL, and so disables TX-EMIT, wherever the engine stands at a boundary. -/
theorem txAbortMarksTheTransmission : Obligations.TxAbortMarksTheTransmission := by
  refine ⟨fun s hrun => exec_txAbort_run hrun, fun s hrun habort => ?again, fun s t hrun hi h => ?boundary,
    fun s hidle => exec_txAbort_idle hidle⟩
  case again => rw [exec_txAbort_run hrun, ← habort]
  case boundary =>
    rw [exec_txAbort_run hrun] at h
    injection h with h
    subst h
    refine ⟨(State.cancelEnabled_iff _).2 ⟨hrun, rfl, hi⟩, ?_⟩
    rw [Bool.eq_false_iff, ne_eq, State.emitEnabled_iff]
    exact fun hen => hen.2 ⟨rfl, hi⟩

end Sys2Proof.Machine
end

section
/-! PROOF. What a step does to the transmitter (R181 to R185, R300): the ways a step touches the TX engine, its snapshot
and the stream, which the transmission's invariants cite. -/

namespace Sys2Proof.Machine

open Sys2Proof Sys2Proof.Safety

/-- A command leaves the stream and the TX payload RAM alone (R104, R129, R181, R184). -/
theorem exec_stream_payload {i : Instr} {s t : State} (h : exec i s = .next t) :
    t.txStream = s.txStream ∧ t.txRam = s.txRam ∧ t.resets = s.resets :=
  exec_keeps (P := fun u => u.txStream = s.txStream ∧ u.txRam = s.txRam ∧ u.resets = s.resets)
    (refuse := fun _ hs => hs)
    (issues := fun _ _ hs => hs)
    (txFailed := fun _ _ _ _ hs => hs)
    (txStarted := fun _ _ _ _ _ hs => hs)
    (txAbort := fun _ _ hs => hs)
    (rxFailed := fun _ _ hs => hs)
    (rxEnabled := fun _ _ _ _ _ hs => hs)
    (rxFinish := fun _ _ hs => by simpa using hs)
    (rxAbort := fun _ _ hs => hs)
    (pop := fun _ _ _ _ hs => hs)
    (softReset := fun u t h hs => by
      injection h with h
      subst h
      exact hs)
    i s t ⟨rfl, rfl, rfl⟩ h

/-- What a step can do to the TX engine, its snapshot and the stream. -/
inductive TransmitterStep (s t : State) : Prop
  /-- Nothing. -/
  | kept (htx : t.tx = s.tx) (hsnap : t.txSnap = s.txSnap) (hstream : t.txStream = s.txStream)
  /-- SOFT_RESET and reset (R129, R300). -/
  | cleared (htx : t.tx = TxEngine.reset) (hsnap : t.txSnap = none) (hstream : t.txStream = s.txStream)
  /-- TX_START turned away with an outcome (R181). -/
  | failed (c : OutcomeCode) (hc : c = .invalidSettings ∨ c = .capacityExceeded) (hidle : s.tx.state = .idle)
      (htx : t.tx = { s.tx with count := 0, total := 0, outcome := c }) (hsnap : t.txSnap = s.txSnap)
      (hstream : t.txStream = s.txStream)
  /-- TX_START accepted (R181). -/
  | started (ec : EcLevel) (hidle : s.tx.state = .idle) (hlegal : anyIssue (issuesTx s.params s.settings) = false)
      (htx : t.tx = (s.txStarted ec).tx) (hsnap : t.txSnap = some (txSnapOf s.settings))
      (hstream : t.txStream = s.txStream)
  /-- TX_ABORT of a running transmission (R184). -/
  | marked (hrun : s.tx.state = .run) (htx : t.tx = { s.tx with abort := true }) (hsnap : t.txSnap = s.txSnap)
      (hstream : t.txStream = s.txStream)
  /-- TX-CANCEL (R185). -/
  | cancelled (hen : s.cancelEnabled = true)
      (htx : t.tx = { s.tx with state := .idle, abort := false, outcome := .cancelled }) (hsnap : t.txSnap = s.txSnap)
      (hstream : t.txStream = s.txStream)
  /-- TX-EMIT (R183). -/
  | emitted (hin : s.inputs.head? = some .sinkReady) (hrst : s.rstAsserted = false) (hen : s.emitEnabled = true)
      (ht : t = s.takeInput.txEmit)

/-- The transmitter after a command, from a state that differs from `s` in the schedule and the port's answer. -/
theorem transmitterStep_of_exec {s t : State} {i : Instr} (p : PortAnswer)
    (h : exec i { s.takeInput with port := p } = .next t) : TransmitterStep s t := by
  obtain ⟨hstream, -, -⟩ := exec_stream_payload h
  rcases exec_cases h with ⟨-, rfl⟩ | ⟨-, h⟩ | ⟨-, h⟩ | ⟨-, rfl⟩ | ⟨-, rfl⟩ | ⟨-, h⟩ | ⟨-, h⟩ | ⟨-, h⟩ | ⟨-, h⟩ |
    ⟨-, h⟩
  · exact .kept rfl rfl hstream
  · rcases execTxStart_cases h with ⟨-, rfl⟩ | ⟨hidle, -, rfl⟩ | ⟨ec, hidle, hlegal, -, ⟨-, rfl⟩ | ⟨-, rfl⟩⟩
    · exact .kept rfl rfl hstream
    · exact .failed .invalidSettings (.inl rfl) hidle rfl rfl hstream
    · exact .started ec hidle hlegal rfl rfl hstream
    · exact .failed .capacityExceeded (.inr rfl) hidle rfl rfl hstream
  · rcases execTxAbort_cases h with ⟨hrun, rfl⟩ | ⟨-, rfl⟩
    · exact .marked hrun rfl rfl hstream
    · exact .kept rfl rfl hstream
  · exact .kept rfl rfl hstream
  · exact .kept rfl rfl hstream
  · rcases execRxEnable_cases h with ⟨-, rfl⟩ | ⟨-, -, rfl⟩ | ⟨ec, margin, -, -, -, -, rfl⟩
    · exact .kept rfl rfl hstream
    · exact .kept rfl rfl hstream
    · exact .kept rfl rfl hstream
  · rcases execRxFinish_cases h with ⟨-, rfl⟩ | ⟨-, rfl⟩
    · exact .kept rfl rfl hstream
    · exact .kept (by simp) (by simp) hstream
  · rcases execRxAbort_cases h with ⟨-, rfl⟩ | ⟨-, rfl⟩
    · exact .kept rfl rfl hstream
    · exact .kept rfl rfl hstream
  · rcases execResPop_cases h with ⟨-, rfl⟩ | ⟨e, rest, -, rfl⟩
    · exact .kept rfl rfl hstream
    · exact .kept rfl rfl hstream
  · injection h with h
    subst h
    exact .cleared rfl rfl hstream

/-- Every step touches the transmitter in one of the ways of `TransmitterStep`. -/
theorem step_transmitterStep {s t : State} (h : step s = .next t) : TransmitterStep s t := by
  rcases step_cases h with rfl | ⟨-, rfl⟩ | ⟨hrst, ⟨hen, -, rfl⟩ | ⟨p, rfl⟩ | ⟨w, -, -, rfl⟩ | ⟨w, i, -, -, he⟩ |
    ⟨off, v, -, -, -, rfl⟩ | ⟨hin, hen, rfl⟩ | ⟨v, -, rfl⟩ | ⟨-, rfl⟩⟩
  · exact .kept rfl rfl rfl
  · exact .kept rfl rfl rfl
  · exact .cancelled hen rfl rfl rfl
  · exact .kept rfl rfl rfl
  · exact .kept rfl rfl rfl
  · exact transmitterStep_of_exec _ he
  · exact .kept (by simp) (by simp) (by simp)
  · exact .emitted hin hrst hen rfl
  · exact .kept (by simp) (by simp) (by simp)
  · exact .cleared rfl rfl rfl

/-- R183: TX-EMIT adds at most one sample to the stream. -/
theorem State.txEmit_txStream_cases (s : State) :
    s.txEmit.txStream = s.txStream ∨ ∃ y, s.txEmit.txStream = s.txStream ++ [y] := by
  rcases txEmit_cases s with h | ⟨sn, sl, hsnap, hslot, -⟩
  · exact .inl (by rw [h])
  · exact .inr ⟨_, State.txEmit_txStream hsnap hslot⟩

/-- R61, R183: a running transmission stands on a slot of its plan. -/
theorem exists_slot_of_run {s : State} (h : TransmissionOk s) (hrun : s.tx.state = .run) :
    ∃ sn sl, s.txSnap = some sn ∧ runningOk s.tx sn ∧ s.tx.plan[s.tx.slot]? = some sl := by
  obtain ⟨sn, hsnap, hok⟩ := h.1 hrun
  exact ⟨sn, _, hsnap, hok, List.getElem?_eq_getElem hok.2.1⟩

/-- Settles O30: the stream grows in TX-EMIT alone, and there by the sample of the slot the transmission stands on. -/
theorem samplesLeaveOnlyByEmission : Obligations.SamplesLeaveOnlyByEmission := by
  refine ⟨fun s t h hne => ?only, fun s t hok h hin hrst hrun hnotdue => ?every⟩
  case only =>
    cases step_transmitterStep h with
    | emitted hin hrst hen ht =>
      obtain ⟨hrun, hnotdue⟩ := s.emitEnabled_iff.1 hen
      rw [ht] at hne ⊢
      exact ⟨hin, hrst, hrun, hnotdue, s.takeInput.txEmit_txStream_cases.resolve_left hne⟩
    | kept _ _ hstream => exact absurd hstream hne
    | cleared _ _ hstream => exact absurd hstream hne
    | failed _ _ _ _ _ hstream => exact absurd hstream hne
    | started _ _ _ _ _ hstream => exact absurd hstream hne
    | marked _ _ _ hstream => exact absurd hstream hne
    | cancelled _ _ _ hstream => exact absurd hstream hne
  case every =>
    obtain ⟨sn, sl, hsnap, -, hslot⟩ := exists_slot_of_run hok hrun
    obtain ⟨rest, hin⟩ := List.head?_eq_some_iff.1 hin
    rw [step_of_sinkReady hin hrst (s.emitEnabled_iff.2 ⟨hrun, hnotdue⟩)] at h
    injection h with h
    subst h
    exact ⟨_, State.txEmit_txStream (s := { s with inputs := rest, port := .none }) hsnap hslot⟩

end Sys2Proof.Machine
end

section
/-! PROOF. The shape of a transmission (R61, R181, R183, R186), which every step keeps. -/

namespace Sys2Proof.Machine

open Sys2Proof Sys2Proof.Safety

theorem transmissionOk_frame {s t : State} (h : TransmissionOk s) (htx : t.tx = s.tx) (hsnap : t.txSnap = s.txSnap) :
    TransmissionOk t := by
  simpa only [TransmissionOk, htx, hsnap] using h

theorem transmissionOk_idle {s : State} (hidle : s.tx.state = .idle) (habort : s.tx.abort = false)
    (hok : s.tx.outcome = .ok → s.tx.count = s.tx.total) : TransmissionOk s :=
  ⟨fun hrun => absurd (hidle.symm.trans hrun) (by decide), fun _ => habort, hok⟩

/-- A running transmission has no outcome yet. -/
theorem transmissionOk_run {s : State} {sn : TxSnap} (hrun : s.tx.state = .run) (hsnap : s.txSnap = some sn)
    (h : runningOk s.tx sn) : TransmissionOk s := by
  refine ⟨fun _ => ⟨sn, hsnap, h⟩, fun hidle => absurd (hrun.symm.trans hidle) (by decide), fun hok => ?_⟩
  obtain ⟨-, -, -, -, hnone, -⟩ := h
  exact absurd (hnone.symm.trans hok) (by decide)

/-- R123, R172: a legal slot holds samples. -/
theorem slotLen_pos_of_noIssue {p : Params} {st : Settings} (h : anyIssue (issuesTx p st) = false) :
    0 < st.slotLen := by
  obtain ⟨hdur, -⟩ := (anyIssue_issuesTx p st).1 h
  have hnb : st.nb ≠ 0 := by simpa [issueBitDuration] using hdur
  exact Nat.add_pos_left (Nat.pos_of_ne_zero hnb) _

/-- R181: a transmission starts at the first sample of its first slot, on tones that its snapshot has. -/
theorem txStarted_runningOk {s : State} (ec : EcLevel) (hlegal : anyIssue (issuesTx s.params s.settings) = false) :
    runningOk (s.txStarted ec).tx (txSnapOf s.settings) := by
  refine ⟨slotLen_pos_of_noIssue hlegal, ?slot, (Nat.zero_mul _).symm, rfl, rfl, fun sl hsl => ?tone⟩
  case slot =>
    show 0 < (s.txPlan ec).length
    rw [State.txPlan, slotPlan_length]
    omega
  case tone =>
    have hinc : (txSnapOf s.settings).inc.length = 2 ^ s.settings.tonesLog2 + 1 := by simp [txSnapOf, Settings.m]
    rw [hinc]
    exact Nat.lt_succ_of_le (slotPlan_tone_le _ _ sl hsl)

/-- R183: one sample further, the transmission still runs inside its plan, or every sample is sent and it is over. -/
theorem advance_runningOk_or_done {tx : TxEngine} {sn : TxSnap} (sl : Slot) (hrun : tx.state = .run)
    (h : runningOk tx sn) :
    (tx.advance sn sl).state = .run ∧ runningOk (tx.advance sn sl) sn ∨
    (tx.advance sn sl).state = .idle ∧ (tx.advance sn sl).abort = false ∧
      (tx.advance sn sl).count = (tx.advance sn sl).total := by
  obtain ⟨hi, hslot, hcount, htotal, hnone, htones⟩ := h
  by_cases hend : tx.i + 1 = sn.s
  · have hboundary : tx.count + 1 = (tx.slot + 1) * sn.s := by rw [Nat.succ_mul]; omega
    by_cases hlast : tx.slot + 1 = tx.plan.length
    · rw [TxEngine.advance_last sl hend hlast]
      refine .inr ⟨rfl, rfl, ?_⟩
      show tx.count + 1 = tx.total
      rw [hboundary, hlast, htotal]
    · rw [TxEngine.advance_nextSlot sl hend hlast]
      exact .inl ⟨hrun, by show 0 < sn.s; omega, Nat.lt_of_le_of_ne hslot hlast, hboundary, htotal, hnone, htones⟩
  · rw [TxEngine.advance_within sl hend]
    exact .inl ⟨hrun, Nat.lt_of_le_of_ne hi hend, hslot, congrArg (· + 1) hcount, htotal, hnone, htones⟩

/-- Settles O33: each way a step touches the transmitter keeps the shape. -/
theorem stepKeepsTransmissionShape : Obligations.StepKeepsTransmissionShape := by
  intro s t hs h
  cases step_transmitterStep h with
  | kept htx hsnap _ => exact transmissionOk_frame hs htx hsnap
  | cleared htx _ _ =>
    refine transmissionOk_idle ?_ ?_ ?_ <;> rw [htx]
    · rfl
    · rfl
    · exact fun _ => rfl
  | failed c hc hidle htx _ _ =>
    refine transmissionOk_idle ?_ ?_ ?_ <;> rw [htx]
    · exact hidle
    · exact hs.2.1 hidle
    · exact fun _ => rfl
  | started ec _ hlegal htx hsnap _ =>
    refine transmissionOk_run ?_ hsnap ?_ <;> rw [htx]
    · rfl
    · exact txStarted_runningOk ec hlegal
  | marked hrun htx hsnap _ =>
    obtain ⟨sn, hsn, hok⟩ := hs.1 hrun
    refine transmissionOk_run ?_ (hsnap.trans hsn) ?_ <;> rw [htx]
    · exact hrun
    · exact hok
  | cancelled _ htx _ _ =>
    refine transmissionOk_idle ?_ ?_ ?_ <;> rw [htx]
    exact nofun
  | emitted _ _ hen ht =>
    obtain ⟨hrun, -⟩ := s.emitEnabled_iff.1 hen
    obtain ⟨sn, sl, hsn, hok, hslot⟩ := exists_slot_of_run hs hrun
    have htx : t.tx = s.tx.advance sn sl := by
      rw [ht]
      exact State.txEmit_tx (s := s.takeInput) hsn hslot
    have hsnap : t.txSnap = some sn := by
      rw [ht, State.txEmit_txSnap]
      exact hsn
    rcases advance_runningOk_or_done sl hrun hok with ⟨hrun', hok'⟩ | ⟨hidle, habort, hcount⟩
    · rw [← htx] at hrun' hok'
      exact transmissionOk_run hrun' hsnap hok'
    · rw [← htx] at hidle habort hcount
      exact transmissionOk_idle hidle habort (fun _ => hcount)

end Sys2Proof.Machine
end

section
/-! PROOF. The stream of a transmission (R187): every sample sent is the one its snapshot and its plan give at its
index, and every step keeps that. -/

namespace Sys2Proof.Machine

open Sys2Proof Sys2Proof.Safety

/-! The formula one sample further. -/

theorem phaseAt_succ {sn : TxSnap} {plan : List Slot} {n : Nat} {sl : Slot} (h : plan[n / sn.s]? = some sl) :
    phaseAt sn plan (n + 1) = phaseAt sn plan n + sn.inc.getD sl.tone 0 := by
  simp only [phaseAt, h]

theorem streamSample_of_slot {sn : TxSnap} {plan : List Slot} {n : Nat} {sl : Slot} (h : plan[n / sn.s]? = some sl) :
    streamSample sn plan n = sampleOf sn sl (n % sn.s) (phaseAt sn plan n) := by
  simp only [streamSample, h]

theorem streamSamples_succ (sn : TxSnap) (plan : List Slot) (n : Nat) :
    streamSamples sn plan (n + 1) = streamSamples sn plan n ++ [streamSample sn plan n] := by
  simp only [streamSamples, List.range_succ, List.map_append, List.map_cons, List.map_nil]

@[simp] theorem streamSamples_length (sn : TxSnap) (plan : List Slot) (n : Nat) :
    (streamSamples sn plan n).length = n := by
  simp [streamSamples]

/-- R61: the count of a running transmission names its slot and its index in the slot. -/
theorem runningOk_count {tx : TxEngine} {sn : TxSnap} (h : runningOk tx sn) :
    tx.count / sn.s = tx.slot ∧ tx.count % sn.s = tx.i := by
  obtain ⟨hi, -, hcount, -⟩ := h
  rw [hcount, Nat.mul_comm]
  exact ⟨by rw [Nat.mul_add_div (by omega), Nat.div_eq_of_lt hi, Nat.add_zero],
    by rw [Nat.mul_add_mod, Nat.mod_eq_of_lt hi]⟩

/-! The invariant. -/

/-- R187: the sent samples `stream` end with those of the engine's transmission, and its phase is the formula's. -/
def followsFormula (tx : TxEngine) (sn : TxSnap) (stream : List Sample) : Prop :=
  tx.phase = phaseAt sn tx.plan tx.count ∧ ∃ before, stream = before ++ streamSamples sn tx.plan tx.count

theorem streamOk_intro {s : State} {sn : TxSnap} (hsnap : s.txSnap = some sn)
    (hformula : followsFormula s.tx sn s.txStream)
    (hok : s.tx.outcome = .ok → s.tx.count = s.tx.total ∧ s.tx.total = s.tx.plan.length * sn.s) : StreamOk s := by
  obtain ⟨hphase, before, hstream⟩ := hformula
  exact fun _ => ⟨sn, before, hsnap, hphase, hstream, hok⟩

theorem followsFormula_of_run {s : State} {sn : TxSnap} (h : StreamOk s) (hrun : s.tx.state = .run)
    (hsnap : s.txSnap = some sn) : followsFormula s.tx sn s.txStream := by
  obtain ⟨sn', before, hsnap', hphase, hstream, -⟩ := h (.inl hrun)
  obtain rfl : sn' = sn := Option.some.inj (hsnap'.symm.trans hsnap)
  exact ⟨hphase, before, hstream⟩

theorem streamOk_frame {s t : State} (h : StreamOk s) (htx : t.tx = s.tx) (hsnap : t.txSnap = s.txSnap)
    (hstream : t.txStream = s.txStream) : StreamOk t := by
  simpa only [StreamOk, htx, hsnap, hstream] using h

/-- The formula speaks of no transmission where none runs and none ended with OK or CANCELLED. -/
theorem streamOk_none_sent {s : State} (hidle : s.tx.state = .idle) (hok : s.tx.outcome ≠ .ok)
    (hcancelled : s.tx.outcome ≠ .cancelled) : StreamOk s := by
  rintro (hrun | hout | hout)
  · exact absurd (hidle.symm.trans hrun) (by decide)
  · exact absurd hout hok
  · exact absurd hout hcancelled

/-- R183, R187: the sample that TX-EMIT sends is the formula's next, and so is the phase it leaves. -/
theorem advance_followsFormula {tx : TxEngine} {sn : TxSnap} {sl : Slot} {stream : List Sample}
    (hok : runningOk tx sn) (hslot : tx.plan[tx.slot]? = some sl) (h : followsFormula tx sn stream) :
    followsFormula (tx.advance sn sl) sn (stream ++ [sampleOf sn sl tx.i tx.phase]) := by
  obtain ⟨hphase, before, hstream⟩ := h
  obtain ⟨hdiv, hmod⟩ := runningOk_count hok
  obtain ⟨hphase', hcount', hplan', -⟩ := tx.advance_frame sn sl
  have hat : tx.plan[tx.count / sn.s]? = some sl := by rw [hdiv, hslot]
  unfold followsFormula
  rw [hphase', hcount', hplan']
  refine ⟨by rw [phaseAt_succ hat, hphase], before, ?_⟩
  rw [streamSamples_succ, streamSample_of_slot hat, hmod, ← hphase, hstream, List.append_assoc]

/-- R183: the advance ends a transmission with OK only when the total is the plan's samples and all are sent. -/
theorem advance_outcome_ok {tx : TxEngine} {sn : TxSnap} (sl : Slot) (hrun : tx.state = .run) (h : runningOk tx sn)
    (hok : (tx.advance sn sl).outcome = .ok) :
    (tx.advance sn sl).count = (tx.advance sn sl).total ∧
      (tx.advance sn sl).total = (tx.advance sn sl).plan.length * sn.s := by
  rcases advance_runningOk_or_done sl hrun h with ⟨-, -, -, -, -, hnone, -⟩ | ⟨-, -, hcount⟩
  · exact absurd (hnone.symm.trans hok) (by decide)
  · obtain ⟨-, -, hplan, htotal⟩ := tx.advance_frame sn sl
    obtain ⟨-, -, -, hsamples, -⟩ := h
    exact ⟨hcount, by rw [htotal, hplan, hsamples]⟩

/-- R187: each way a step touches the transmitter keeps the formula. -/
theorem step_streamOk {s t : State} (hs : TransmissionOk s) (hstr : StreamOk s) (h : step s = .next t) :
    StreamOk t := by
  cases step_transmitterStep h with
  | kept htx hsnap hstream => exact streamOk_frame hstr htx hsnap hstream
  | cleared htx _ _ => refine streamOk_none_sent ?_ ?_ ?_ <;> rw [htx] <;> decide
  | failed c hc hidle htx _ _ =>
    refine streamOk_none_sent ?_ ?_ ?_ <;> rw [htx]
    · exact hidle
    · rcases hc with rfl | rfl <;> nofun
    · rcases hc with rfl | rfl <;> nofun
  | started ec _ _ htx hsnap _ =>
    refine streamOk_intro hsnap ?_ ?_ <;> rw [htx]
    · exact ⟨rfl, t.txStream, (List.append_nil _).symm⟩
    · exact nofun
  | marked hrun htx hsnap hstream =>
    obtain ⟨sn, hsn, -, -, -, -, hnone, -⟩ := hs.1 hrun
    refine streamOk_intro (hsnap.trans hsn) ?_ ?_ <;> rw [htx]
    · rw [hstream]
      exact followsFormula_of_run hstr hrun hsn
    · exact fun hok => absurd (hnone.symm.trans hok) (by decide)
  | cancelled hen htx hsnap hstream =>
    obtain ⟨hrun, -⟩ := s.cancelEnabled_iff.1 hen
    obtain ⟨sn, hsn, -⟩ := hs.1 hrun
    refine streamOk_intro (hsnap.trans hsn) ?_ ?_ <;> rw [htx]
    · rw [hstream]
      exact followsFormula_of_run hstr hrun hsn
    · exact nofun
  | emitted _ _ hen ht =>
    obtain ⟨hrun, -⟩ := s.emitEnabled_iff.1 hen
    obtain ⟨sn, sl, hsn, hok, hslot⟩ := exists_slot_of_run hs hrun
    rw [ht]
    refine streamOk_intro (sn := sn) ?_ ?_ ?_
    · rw [State.txEmit_txSnap]
      exact hsn
    · rw [State.txEmit_tx (s := s.takeInput) hsn hslot, State.txEmit_txStream (s := s.takeInput) hsn hslot]
      exact advance_followsFormula hok hslot (followsFormula_of_run hstr hrun hsn)
    · rw [State.txEmit_tx (s := s.takeInput) hsn hslot]
      exact advance_outcome_ok sl hrun hok

/-- Settles O34: the formula is an invariant, and at OK the count it speaks of is the plan's samples. -/
theorem stepKeepsStreamFormula : Obligations.StepKeepsStreamFormula := by
  refine ⟨fun s t hs hstr h => step_streamOk hs hstr h, fun s hstr hok => ?_⟩
  obtain ⟨sn, before, hsnap, -, hstream, hdone⟩ := hstr (.inr (.inl hok))
  obtain ⟨hcount, htotal⟩ := hdone hok
  have hsent : s.tx.count = s.tx.plan.length * sn.s := hcount.trans htotal
  exact ⟨sn, before, hsnap, hsent ▸ hstream, htotal, by rw [streamSamples_length, htotal]⟩

end Sys2Proof.Machine
end

section
/-! PROOF. What a running transmission is protected from (R25, R90, R186): no step changes its snapshot, its plan, its
total or its payload, and no write outside CMD reaches the engine. -/

namespace Sys2Proof.Machine

open Sys2Proof Sys2Proof.Safety

/-- R90: while a transmission runs no port write reaches the TX payload RAM. -/
theorem portWrite_txRam_run {s : State} (off : Offset) (v : Word) (hrun : s.tx.state = .run) :
    (s.portWrite off v).txRam = s.txRam := by
  rcases portWrite_cases s off v with ⟨r, -, h⟩ | ⟨w, -, h⟩ | h <;> rw [h]
  · rcases writeReg_cases s r v with ⟨-, hw⟩ | ⟨-, hw⟩ | ⟨-, hw⟩ | hw <;> rw [hw] <;> rfl
  · rw [State.writeTxWord_run w v hrun]

/-- R90, R186: a step from a running transmission keeps every byte of the payload RAM, or it is the reset step. -/
theorem step_txByte_run {s t : State} (h : step s = .next t) (hrun : s.tx.state = .run) :
    t.tx = TxEngine.reset ∨ ∀ k, t.txByte k = s.txByte k := by
  have hsame {u : State} (hram : u.txRam = s.txRam) (hresets : u.resets = s.resets) (k : Nat) :
      u.txByte k = s.txByte k := by
    simp only [State.txByte, hram, hresets]
  rcases step_cases h with rfl | ⟨-, rfl⟩ | ⟨hrst, ⟨-, -, rfl⟩ | ⟨p, rfl⟩ | ⟨w, -, -, rfl⟩ | ⟨w, i, -, -, he⟩ |
    ⟨off, v, -, -, -, rfl⟩ | ⟨-, -, rfl⟩ | ⟨v, -, rfl⟩ | ⟨-, rfl⟩⟩
  · exact .inr fun _ => rfl
  · exact .inr fun _ => rfl
  · exact .inr fun _ => rfl
  · exact .inr fun _ => rfl
  · exact .inr fun _ => rfl
  · obtain ⟨-, hram, hresets⟩ := exec_stream_payload he
    exact .inr (hsame hram hresets)
  · exact .inr (hsame (portWrite_txRam_run (s := { s.takeInput with port := .written }) off v hrun) (by simp))
  · exact .inr (hsame (by simp) (by simp))
  · exact .inr (hsame (by simp) (by simp))
  · exact .inl rfl

/-- R186: between two running states the snapshot, the plan and the total stand. -/
theorem step_plan_run {s t : State} (h : step s = .next t) (hrun : s.tx.state = .run) (hrun' : t.tx.state = .run) :
    t.txSnap = s.txSnap ∧ t.tx.plan = s.tx.plan ∧ t.tx.total = s.tx.total := by
  cases step_transmitterStep h with
  | kept htx hsnap _ => exact ⟨hsnap, by rw [htx], by rw [htx]⟩
  | cleared htx _ _ => rw [htx] at hrun'; cases hrun'
  | failed _ _ hidle _ _ _ => exact absurd (hidle.symm.trans hrun) (by decide)
  | started _ hidle _ _ _ _ => exact absurd (hidle.symm.trans hrun) (by decide)
  | marked _ htx hsnap _ => exact ⟨hsnap, by rw [htx], by rw [htx]⟩
  | cancelled _ htx _ _ => rw [htx] at hrun'; cases hrun'
  | emitted _ _ _ ht =>
    rw [ht]
    refine ⟨State.txEmit_txSnap _, ?_⟩
    rcases txEmit_cases s.takeInput with hkept | ⟨sn, sl, hsn, hslot, -⟩
    · rw [hkept]
      exact ⟨rfl, rfl⟩
    · rw [State.txEmit_tx hsn hslot]
      obtain ⟨-, -, hplan, htotal⟩ := s.tx.advance_frame sn sl
      exact ⟨hplan, htotal⟩

/-- R25, R101: a scheduled write outside CMD is not taken, a bus error, or a port write. -/
theorem step_hostWrite_cases {s t : State} {off : Offset} {width : Nat} {v : Word} {rest : List Input}
    (hin : s.inputs = .hostWrite off width v :: rest) (hcmd : off ≠ cmdOffset) (h : step s = .next t) :
    (∃ p, t = { s.takeInput with port := p }) ∨ t = State.portWrite { s.takeInput with port := .written } off v := by
  cases hrst : s.rstAsserted with
  | true =>
    have hheld : step s = .next s.takeInput := by
      simp only [step, hin, inputStep, State.takeInput_rstAsserted, hrst, if_true]
      rfl
    exact .inl ⟨.none, (Host.Outcome.next.inj (hheld.symm.trans h)).symm⟩
  | false =>
    rw [step_of_inputs hrst hin, ← State.takeInput_of_inputs hin, agentStep] at h
    rcases hostWrite_cases h with ⟨-, rfl⟩ | ⟨-, ho, -, -⟩ | ⟨i, -, ho, -, -⟩ | ⟨-, -, rfl⟩
    · exact .inl ⟨_, rfl⟩
    · exact absurd ho hcmd
    · exact absurd ho hcmd
    · exact .inr rfl

/-- Settles O32: a step that goes on transmitting keeps what the transmission sends, and a port write is no TX step. -/
theorem runningTransmissionKeepsItsPlan : Obligations.RunningTransmissionKeepsItsPlan := by
  refine ⟨fun s t h hrun hrun' => ?goesOn, fun s t off width v rest hin hcmd h => ?write⟩
  case goesOn =>
    obtain ⟨hsnap, hplan, htotal⟩ := step_plan_run h hrun hrun'
    have hbytes := (step_txByte_run h hrun).resolve_left fun hreset => by rw [hreset] at hrun'; cases hrun'
    exact ⟨hsnap, hplan, htotal, hbytes⟩
  case write =>
    rcases step_hostWrite_cases hin hcmd h with ⟨p, rfl⟩ | rfl
    · exact ⟨rfl, rfl, rfl⟩
    · exact ⟨by simp, by simp, by simp⟩

end Sys2Proof.Machine
end

section
/-! PROOF. TX_START and RX_ENABLE (R181, R182, R201): what a legal start leaves, and where a start is turned away. -/

namespace Sys2Proof.Machine

open Sys2Proof Sys2Proof.Safety

/-- R149: each level is the meaning of its code. -/
theorem ecLevelOf_code (ec : EcLevel) : ecLevelOf ec.code = some ec := by cases ec <;> rfl

/-- R124: KIND is 0, so a validation of the encoding settings that reports no issue leaves ISSUES 0. -/
theorem issuesTx_eq_zero {p : Params} {st : Settings} (h : anyIssue (issuesTx p st) = false) : issuesTx p st = 0 := by
  have hclear (k : Nat) (hk : k < 32) : (issuesTx p st).getLsbD k = false := by
    rcases Nat.lt_or_eq_of_le (Nat.le_of_lt_succ hk) with hlt | rfl
    · exact (anyIssue_eq_false_iff _).1 h k hlt
    · exact getLsbD_issuesTx_of_not_mem p st (by decide)
  exact BitVec.eq_of_getLsbD_eq fun k hk => (hclear k hk).trans BitVec.getLsbD_zero.symm

/-- R182: a budget of 0 is no limit. -/
theorem fitsBudget_iff (st : Settings) (t : Nat) :
    fitsBudget st t = true ↔ st.txMaxSamples.toNat = 0 ∨ t ≤ st.txMaxSamples.toNat := by
  have hzero : st.txMaxSamples = 0 ↔ st.txMaxSamples.toNat = 0 := BitVec.toNat_eq
  simp only [fitsBudget, Bool.or_eq_true, beq_iff_eq, hzero, decide_eq_true_eq]

/-- R182: the total is that of the preamble's slots and one slot for each data symbol. -/
theorem State.txTotal_eq (s : State) (ec : EcLevel) :
    s.txTotal ec = (13 + cdiv (s.txCodedBits ec).length s.settings.tonesLog2) * s.settings.slotLen := by
  rw [State.txTotal, State.txPlan, slotPlan_length]

/-- R153: the coded bits of a frame of TX_LEN payload bytes. -/
theorem State.txCodedBits_length (s : State) (ec : EcLevel) :
    (s.txCodedBits ec).length = codedLen ec s.settings.redundancy.toNat (40 + 8 * s.settings.txLen.toNat) := by
  have hbits (c e : Bool) : (bitsOf (frameBody ec c e s.txPayload)).length = 40 + 8 * s.settings.txLen.toNat := by
    rw [frameBody_bits_length, State.txPayload, List.length_map, List.length_range]
  rw [State.txCodedBits, ecEncode_length _ _ _ (by rw [hbits]; omega), hbits]

/-! TX_START, case by case (R181). -/

theorem exec_txStart_of_issue {s : State} (hidle : s.tx.state = .idle)
    (hissue : anyIssue (issuesTx s.params s.settings) = true) :
    exec .txStart s = .next (s.txStartFailed .invalidSettings) := by
  simp only [exec, execTxStart, hidle, hissue, reduceCtorEq, if_true, if_false]

theorem exec_txStart_of_legal {s : State} {ec : EcLevel} (hidle : s.tx.state = .idle)
    (hlegal : anyIssue (issuesTx s.params s.settings) = false) (hec : s.settings.ecField = ec.code) :
    exec .txStart s = if fitsBudget s.settings (s.txTotal ec) = true then .next (s.txStarted ec)
      else .next (s.txStartFailed .capacityExceeded) := by
  simp only [exec, execTxStart, hidle, hlegal, hec, ecLevelOf_code, reduceCtorEq, Bool.false_eq_true, if_false]

/-- Settles O21: a legal frame in the budget is started, with the total that its coded bits give. -/
theorem txStartStartsTheTransmission : Obligations.TxStartStartsTheTransmission := by
  intro s ec st fs b nb ng cb total hidle hlegal hec hbudget
  have htotal : s.txTotal ec = total := s.txTotal_eq ec
  rw [exec_txStart_of_legal hidle hlegal hec, if_pos ((fitsBudget_iff ..).2 (htotal ▸ hbudget)), State.txStarted,
    issuesTx_eq_zero hlegal, htotal]
  rfl

/-! The starts that are turned away (R104, R181, R182, R201). -/

theorem State.txStartFailed_eq (s : State) (c : OutcomeCode) :
    s.txStartFailed c =
      { s with
        issues := issuesTx s.params s.settings
        irqStatus := s.irqStatus ||| 0x01
        tx := { s.tx with count := 0, total := 0, outcome := c } } := rfl

theorem State.rxEnableFailed_eq (s : State) :
    s.rxEnableFailed =
      { s with
        issues := issuesRx s.params s.settings
        irqStatus := s.irqStatus ||| 0x08
        rx := { s.rx with outcome := .invalidSettings } } := rfl

theorem exec_rxEnable_of_issue {s : State} (hidle : s.rx.state = .idle)
    (hissue : anyIssue (issuesRx s.params s.settings) = true) : exec .rxEnable s = .next s.rxEnableFailed := by
  simp only [exec, execRxEnable, hidle, hissue, ne_eq, not_true, if_true, if_false]

/-- R201: the issues that turn a start away are those of bits 30:0. -/
theorem anyIssue_of_getLsbD {i : Word} {k : Nat} (hk : k < 31) (h : i.getLsbD k = true) : anyIssue i = true := by
  by_contra hno
  have hclear := (anyIssue_eq_false_iff i).1 (Bool.eq_false_iff.2 hno) k hk
  exact absurd (h.symm.trans hclear) (by decide)

/-- Settles O22: a busy engine refuses, and from IDLE a start fails with the outcome its settings give. -/
theorem startCommandsTurnedAway : Obligations.StartCommandsTurnedAway := by
  refine ⟨fun s hrun => ?txBusy, fun s hidle hissue => ?txIssue, ?txBudget, fun s hbusy => ?rxBusy,
    fun s hidle ⟨k, hk, hbit⟩ => ?rxIssue⟩
  case txBusy => rw [exec_of_refused (.inl ⟨rfl, hrun⟩), State.refuse_eq]
  case txIssue => rw [exec_txStart_of_issue hidle hissue, State.txStartFailed_eq]
  case txBudget =>
    intro s ec st fs b total hidle hlegal hec hlimit hover
    have htotal : s.txTotal ec = total := by
      rw [State.txTotal_eq, State.txCodedBits_length]
      rfl
    have hunfit : ¬fitsBudget s.settings (s.txTotal ec) = true := by
      rw [fitsBudget_iff, htotal]
      exact not_or.2 ⟨hlimit, Nat.not_le.2 hover⟩
    rw [exec_txStart_of_legal hidle hlegal hec, if_neg hunfit, State.txStartFailed_eq, issuesTx_eq_zero hlegal]
  case rxBusy => rw [exec_of_refused (.inr (.inl ⟨rfl, hbusy⟩)), State.refuse_eq]
  case rxIssue => rw [exec_rxEnable_of_issue hidle (anyIssue_of_getLsbD hk hbit), State.rxEnableFailed_eq]

end Sys2Proof.Machine
end

section
/-! PROOF. Symbols and the slot plan (R175, R177, R232): each slot of the plan, and the bits the receiver takes back
from the symbols. -/

namespace Sys2Proof.Machine

open Sys2Proof Sys2Proof.Safety

/-- R177: the first 13 slots are on the sync tone, keyed by the preamble. -/
theorem getElem?_slotPlan_preamble (m b : Nat) (cb : List Bool) {i : Nat} (hi : i < 13) :
    (slotPlan m b cb)[i]? = some { tone := m, on := preamble.getD i false } := by
  have hpre : i < preamble.length := hi
  rw [slotPlan, List.getElem?_append_left (by simpa using hi), List.getElem?_map, List.getElem?_eq_getElem hpre,
    List.getD_eq_getElem _ _ hpre]
  rfl

/-- R175, R177: after the preamble each data symbol has its slot, on its tone. -/
theorem getElem?_slotPlan_symbol (m b : Nat) (cb : List Bool) {j : Nat} (hj : j < cdiv cb.length b) :
    (slotPlan m b cb)[13 + j]? = some { tone := symbolAt b cb j, on := true } := by
  have hcount : j < symbolCount b cb.length := hj
  rw [slotPlan, List.getElem?_append_right (by simp), List.length_map, preamble_length, Nat.add_sub_cancel_left,
    List.getElem?_map, symbolsOf, List.getElem?_map, List.getElem?_range hcount]
  rfl

/-- R178: a silent slot has no envelope. -/
theorem envelope_silent (sn : TxSnap) (i : Nat) : envelope sn false i = 0 := if_pos (.inl rfl)

theorem sampleValue_silent (amp : Nat) (phase : Word) : sampleValue amp 0 phase = 0 := by
  simp [sampleValue]

/-- Settles O23: the plan slot by slot, and the bounds of its padding. -/
theorem slotPlanFollowsItsRule : Obligations.SlotPlanFollowsItsRule := by
  intro m b cb hb d
  have hle : cb.length ≤ d * b := le_cdiv_mul cb.length b hb
  have hlt : d * b < cb.length + b := cdiv_mul_lt cb.length b hb
  refine ⟨slotPlan_length m b cb, hle, by omega, fun i hi => getElem?_slotPlan_preamble m b cb hi,
    fun j hj => ⟨symbolAt b cb j, getElem?_slotPlan_symbol m b cb hj, symbolAt_lt b cb j, symbolPart_eq_sum cb j b b⟩,
    fun sn sl i p hoff => ?silent⟩
  case silent =>
    have hzero : sampleValue sn.amp.toNat (envelope sn sl.on i) p = 0 := by
      rw [hoff, envelope_silent, sampleValue_silent]
    exact ⟨hzero, by rw [sampleOf, hzero]; rfl⟩

/-- The positions below `d * b`, `b` at a time. -/
theorem flatMap_range_mul {α : Type} (f : Nat → α) (d b : Nat) :
    (List.range d).flatMap (fun j => (List.range b).map fun k => f (j * b + k)) = (List.range (d * b)).map f := by
  induction d with
  | zero => simp
  | succ d ih =>
    rw [List.range_succ, List.flatMap_append, ih, Nat.succ_mul, List.range_add, List.map_append, List.flatMap_singleton,
      List.map_map]
    rfl

/-- R232: the bits taken back from symbol `j` are the coded bits it was made of. -/
theorem symbolBits_symbolAt (b : Nat) (cb : List Bool) (j : Nat) :
    symbolBits b (some (symbolAt b cb j)) = (List.range b).map fun k => .bit (cb.getD (j * b + k) false) := by
  refine List.map_congr_left fun k hk => congrArg CodedBit.bit ?_
  rw [symbolAt_eq, testBit_symbolPart cb j b b k (List.mem_range.1 hk)]

/-- A sequence read up to a length `n`, past its end as zeros. -/
theorem map_getD_range {n : Nat} (l : List Bool) (h : l.length ≤ n) :
    (List.range n).map (fun k => l.getD k false) = l ++ List.replicate (n - l.length) false := by
  have hlen : n = l.length + (n - l.length) := by omega
  refine List.ext_getElem (by simpa using hlen) fun k hk _ => ?_
  rw [List.getElem_map, List.getElem_range]
  by_cases hl : k < l.length
  · rw [List.getElem_append_left hl, List.getD_eq_getElem _ _ hl]
  · rw [List.getElem_append_right (by omega), List.getElem_replicate, List.getD_eq_default _ _ (by omega)]

/-- Settles O46: symbol by symbol the receiver's bits are the coded bits, and past their end zeros. -/
theorem symbolsRoundTrip : Obligations.SymbolsRoundTrip := by
  intro b cb hb
  have hpad : cb.length ≤ symbolCount b cb.length * b := le_cdiv_mul cb.length b hb
  rw [← map_getD_range cb hpad, List.map_map, symbolsOf, List.flatMap_map]
  simp only [symbolBits_symbolAt]
  exact flatMap_range_mul (fun k => CodedBit.bit (cb.getD k false)) _ b

end Sys2Proof.Machine
end

section
/-! PROOF. Samples, envelopes and tones (R173, R174, R176, R178 to R180, R206): the values' ranges, and each part of the
envelope. -/

namespace Sys2Proof.Machine

open Sys2Proof Sys2Proof.Safety

/-! The output sample (R180). -/

/-- R180: an amplitude and an envelope of at most 2^15 scale SIN down, so that its range is the sample's. -/
theorem sampleValue_bounds {amp env : Nat} (hamp : amp ≤ 32768) (henv : env ≤ 32768) (p : Word) :
    -32767 ≤ sampleValue amp env p ∧ sampleValue amp env p ≤ 32767 := by
  have hscale : ((amp * env : Nat) : Int) ≤ 2 ^ 30 := by
    exact_mod_cast Nat.mul_le_mul hamp henv
  have hnonneg : 0 ≤ ((amp * env : Nat) : Int) := Int.natCast_nonneg _
  obtain ⟨hlo, hhi⟩ := sine_bounds p
  unfold sampleValue
  constructor
  · rw [Int.le_ediv_iff_mul_le (by decide)]
    nlinarith only [hscale, hnonneg, hlo]
  · refine Int.ediv_le_of_le_mul (by decide) ?_
    nlinarith only [hscale, hnonneg, hhi]

/-- R14, R180: a sample in range is carried unchanged by its 16-bit word. -/
theorem toInt_sampleOf {sn : TxSnap} (sl : Slot) (i : Nat) (p : Word) (hamp : sn.amp.toNat ≤ 32768) :
    (sampleOf sn sl i p).toInt = sampleValue sn.amp.toNat (envelope sn sl.on i) p := by
  obtain ⟨hlo, hhi⟩ := sampleValue_bounds hamp (envelope_le sn sl.on i) p
  exact BitVec.toInt_ofInt_eq_self (by decide) (by omega) (by omega)

/-- R180: the division rounds down. -/
theorem sampleValue_floor (amp env : Nat) (p : Word) :
    2 ^ 30 * sampleValue amp env p ≤ (amp : Int) * env * sine p ∧
      (amp : Int) * env * sine p < 2 ^ 30 * (sampleValue amp env p + 1) := by
  unfold sampleValue
  rw [Nat.cast_mul]
  omega

theorem sampleValue_full (p : Word) : sampleValue 32768 32768 p = sine p :=
  Int.mul_ediv_cancel_left (sine p) (by decide : (2 ^ 30 : Int) ≠ 0)

/-- Settles O35: the bounds, and the word that carries a value in them. -/
theorem samplesNeverClip : Obligations.SamplesNeverClip := by
  refine ⟨fun sn sl i p hamp => ?range, sampleValue_full, fun env p => ?zero, sampleValue_floor, by decide⟩
  case range =>
    obtain ⟨hlo, hhi⟩ := sampleValue_bounds hamp (envelope_le sn sl.on i) p
    exact ⟨hlo, hhi, toInt_sampleOf sl i p hamp⟩
  case zero => simp [sampleValue]

/-! The envelope (R178). -/

theorem envelope_past_span {sn : TxSnap} {i : Nat} (h : sn.ne ≤ i) : envelope sn true i = 0 := if_pos (.inr h)

section
variable {sn : TxSnap} {i : Nat}

theorem not_silent_inside_span (h : i < sn.ne) : ¬(true = false ∨ sn.ne ≤ i) :=
  not_or.2 ⟨nofun, Nat.not_le.2 h⟩

theorem envelope_full (hin : sn.nfi ≤ i) (hout : i < sn.ne - sn.nfo) : envelope sn true i = 32768 := by
  simp only [envelope, if_neg (not_silent_inside_span (by omega : i < sn.ne)), if_neg (Nat.not_lt.2 hin),
    if_neg (Nat.not_le.2 hout)]

theorem envelope_fadeIn (hin : i < sn.nfi) (hout : i < sn.ne - sn.nfo) :
    envelope sn true i = fadeValue sn.shape (i + 1) (sn.nfi + 1) := by
  simp only [envelope, if_neg (not_silent_inside_span (by omega : i < sn.ne)), if_pos hin, if_neg (Nat.not_le.2 hout)]
  exact min_eq_right (fadeValue_le _ _ _ (by omega))

theorem envelope_fadeOut (hin : sn.nfi ≤ i) (hout : sn.ne - sn.nfo ≤ i) (hend : i < sn.ne) :
    envelope sn true i = fadeValue sn.shape (sn.ne - i) (sn.nfo + 1) := by
  simp only [envelope, if_neg (not_silent_inside_span (by omega : i < sn.ne)), if_neg (Nat.not_lt.2 hin), if_pos hout]
  exact min_eq_right (fadeValue_le _ _ _ (by omega))

end

/-- Settles O36: fades that fit the span do not overlap, so each index lies in one of the envelope's parts. -/
theorem envelopeFollowsItsRule : Obligations.EnvelopeFollowsItsRule := by
  intro sn i
  refine ⟨envelope_silent sn i, envelope_past_span, envelope_le sn true i, fun hfit =>
    ⟨envelope_full, fun hin => ?_, fun hout hend => ?_⟩⟩
  · exact envelope_fadeIn hin (by omega)
  · exact envelope_fadeOut (by omega) hout hend

/-! The tones (R173, R174). -/

/-- R174: the snapshot holds the increments of tones 0 to M. -/
theorem txSnapOf_inc (st : Settings) {k : Nat} (hk : k ≤ st.m) :
    (txSnapOf st).inc.length = st.m + 1 ∧ (txSnapOf st).inc.getD k 0 = phaseInc st.fs (st.tone k) := by
  have hlen : (txSnapOf st).inc.length = st.m + 1 := by simp [txSnapOf]
  refine ⟨hlen, ?_⟩
  rw [List.getD_eq_getElem _ _ (by omega)]
  simp [txSnapOf]

theorem toNat_phaseInc (fs f : Nat) : (phaseInc fs f).toNat = f * 2 ^ 32 / fs % 2 ^ 32 := BitVec.toNat_ofNat _ _

/-- R174: below Nyquist an increment is less than half a turn. -/
theorem phaseInc_lt_of_nyquist {fs f : Nat} (h : 2 * f < fs) : f * 2 ^ 32 / fs < 2 ^ 31 := by
  rw [Nat.div_lt_iff_lt_mul (by omega)]
  omega

/-- Settles O37: the increments by the snapshot's list, exact below Nyquist, and the rule's examples. -/
theorem phaseIncrementsFollowTheTones : Obligations.PhaseIncrementsFollowTheTones := by
  refine ⟨?_, by decide, by decide⟩
  intro st k hk f fs
  obtain ⟨hlen, hinc⟩ := txSnapOf_inc st hk
  have hval : ((txSnapOf st).inc.getD k 0).toNat = f * 2 ^ 32 / fs % 2 ^ 32 := by rw [hinc, toNat_phaseInc]; rfl
  refine ⟨hlen, hval, fun hnyquist => ?_⟩
  have hlt := phaseInc_lt_of_nyquist hnyquist
  exact ⟨by rw [hval, Nat.mod_eq_of_lt (by omega)], hlt⟩

/-! The configuration functions (R176, R179, R206). -/

theorem raisedCosine_ends {q : Nat} (hq : 1 ≤ q) : raisedCosine 0 q = 0 ∧ raisedCosine q q = 32768 :=
  ⟨if_neg (by omega), if_pos (le_refl q)⟩

theorem raisedCosine_le_succ (p q : Nat) : raisedCosine p q ≤ raisedCosine (p + 1) q := by
  by_cases hend : q ≤ p + 1
  · rw [show raisedCosine (p + 1) q = 32768 from if_pos hend]
    exact raisedCosine_le p q
  · rw [raisedCosine, raisedCosine, if_neg (by omega), if_neg hend]
    exact le_max_left ..

/-- R206: silence has no magnitude. -/
theorem specMag_silence (wf : BitVec 3) {x : List Sample} (k : Nat) (h : ∀ v ∈ x, v = 0) : specMag wf x k = 0 :=
  if_pos (List.all_eq_true.2 fun v hv => beq_iff_eq.2 (h v hv))

/-- Settles O38: each property holds for every value of the open constants. -/
theorem configurationFunctionsKeepTheirProperties : Obligations.ConfigurationFunctionsKeepTheirProperties :=
  ⟨sine_bounds, rfl, rfl, rfl, rfl, fun p q _ _ => raisedCosine_le p q, fun _ hq => raisedCosine_ends hq,
    fun p q _ _ => raisedCosine_le_succ p q,
    fun wf _ k h => (BitVec.toNat_eq.1 (specMag_silence wf k h)).trans BitVec.toNat_zero⟩

end Sys2Proof.Machine
end

section
/-! PROOF. The spectral analyzer (R200 to R210): the session RX_ENABLE starts, the bins and the hop, and what one sample
does. -/

namespace Sys2Proof.Machine

open Sys2Proof

/-! RX_ENABLE with legal settings (R201, R202). -/

/-- R125: a validation of the decoding settings that reports no issue leaves KIND alone in ISSUES. -/
theorem issuesRx_eq_kind {p : Params} {st : Settings} (h : anyIssue (issuesRx p st) = false) :
    issuesRx p st = 0x80000000 := by
  refine BitVec.eq_of_getLsbD_eq fun k hk => ?_
  rcases Nat.lt_or_eq_of_le (Nat.le_of_lt_succ hk) with hlt | rfl
  · have hkind : ∀ k < 31, (0x80000000 : Word).getLsbD k = false := by decide
    rw [(anyIssue_eq_false_iff _).1 h k hlt, hkind k hlt]
  · obtain ⟨-, -, -, -, -, -, -, -, -, -, -, -, hkind⟩ := issuesRx_bits p st
    exact hkind

/-- R231: the margin of a SENSITIVITY that is not reserved. -/
theorem marginOf_of_ne_three :
    ∀ f : BitVec 2, f ≠ 3 → marginOf f = some (if f = 0 then 8 else if f = 1 then 4 else 2) := by decide

theorem exec_rxEnable_of_legal {s : State} {ec : EcLevel} {margin : Nat} (hidle : s.rx.state = .idle)
    (hlegal : anyIssue (issuesRx s.params s.settings) = false) (hec : s.settings.ecField = ec.code)
    (hmargin : marginOf s.settings.sensitivity = some margin) :
    exec .rxEnable s = .next (s.rxEnabled (rxSnapOf s.settings ec margin)) := by
  have hsnap : rxSnap? s.settings = some (rxSnapOf s.settings ec margin) := by
    simp only [rxSnap?, hec, ecLevelOf_code, hmargin]
  simp only [exec, execRxEnable, hidle, hlegal, hsnap, ne_eq, not_true, Bool.false_eq_true, if_false]

/-- Settles O25: legal settings have a margin, so the snapshot is taken, and the session's engine is the fresh one. -/
theorem rxEnableStartsASession : Obligations.RxEnableStartsASession := by
  intro s ec st fs b nb ng n h hidle hlegal hec
  obtain ⟨-, -, -, -, -, -, hsens, -⟩ := (anyIssue_issuesRx s.params s.settings).1 hlegal
  have hmargin := marginOf_of_ne_three s.settings.sensitivity (by simpa [issueSensitivity] using hsens)
  rw [exec_rxEnable_of_legal hidle hlegal hec hmargin, State.rxEnabled, issuesRx_eq_kind hlegal]
  rfl

/-! Bins and the hop (R203, R209). -/

/-- R203: `2·f·N/FS` lies between `2·bin - 1` and `2·bin + 1`, so the bin is the nearest, and a half goes up. -/
theorem binOf_nearest {fs : Nat} (n f : Nat) (hfs : 0 < fs) :
    (2 * binOf fs n f) * fs ≤ 2 * f * n + fs ∧ 2 * f * n + fs < (2 * binOf fs n f + 2) * fs := by
  have hle : binOf fs n f * (2 * fs) ≤ 2 * f * n + fs := Nat.div_mul_le_self ..
  have hlt : 2 * f * n + fs < binOf fs n f * (2 * fs) + 2 * fs := Nat.lt_div_mul_add (by omega)
  constructor <;> linarith

/-- R203: below Nyquist a bin is one of the `N/2 + 1` bins of a frame. -/
theorem binOf_le_of_nyquist {fs n f : Nat} (hf : 2 * f < fs) (hn : 2 ∣ n) : binOf fs n f ≤ n / 2 := by
  obtain ⟨c, rfl⟩ := hn
  have hprod : 2 * f * (2 * c) ≤ fs * (2 * c) := Nat.mul_le_mul_right _ hf.le
  rw [Nat.mul_div_cancel_left c two_pos, ← Nat.lt_succ_iff, binOf, Nat.div_lt_iff_lt_mul (by omega)]
  linarith

theorem Settings.winN_eq (st : Settings) : st.winN = 256 * 2 ^ st.winSize := Nat.pow_add 2 8 st.winSize

/-- R209: the window is a multiple of 256, so the overlap's share of it is exact. -/
theorem Settings.hop_eq (st : Settings) : st.hop = 2 ^ st.winSize * (256 - st.winOverlap.toNat) := by
  rw [Settings.hop, Settings.winN_eq, Nat.mul_assoc, Nat.mul_div_cancel_left _ (by decide), Nat.mul_sub,
    Nat.mul_comm 256]

/-- R209: some part of every window is new, for every overlap. -/
theorem Settings.hop_bounds (st : Settings) : 1 ≤ st.hop ∧ st.hop ≤ st.winN ∧ st.winN / 256 ≤ st.hop := by
  have hnew : 1 ≤ 256 - st.winOverlap.toNat := by have := st.winOverlap.isLt; omega
  have hunit : 2 ^ st.winSize ≤ st.hop := st.hop_eq ▸ Nat.le_mul_of_pos_right _ hnew
  refine ⟨Nat.one_le_two_pow.trans hunit, Nat.sub_le .., ?_⟩
  rwa [Settings.winN_eq, Nat.mul_div_cancel_left _ (by decide)]

/-- Settles O47: the bounds by the division's and the hop's equations, the examples by computation. -/
theorem binsAndHopFollowTheirRules : Obligations.BinsAndHopFollowTheirRules := by
  refine ⟨fun fs n f hfs => binOf_nearest n f hfs, fun fs n f hf hn => binOf_le_of_nyquist hf hn, by decide, by decide,
    Settings.hop_bounds, ?_⟩
  intro st o h hmem hfield hoverlap
  have hsize : st.winSize = 2 := congrArg BitVec.toNat hfield
  have hexamples : ∀ p ∈ [(0, 1024), (128, 512), (192, 256), (255, 4)],
      2 ^ 2 * (256 - (BitVec.ofNat 8 p.1).toNat) = p.2 := by decide
  rw [Settings.hop_eq, Settings.winN_eq, hsize, hoverlap]
  exact ⟨rfl, hexamples (o, h) hmem⟩

/-! One sample (R207, R210). -/

/-- R205: a frame is complete with the window's last sample, and then once a hop. -/
theorem frameDue_iff (sn : RxSnap) (n : Nat) : frameDue sn n = true ↔ sn.n ≤ n ∧ (n - sn.n) % sn.h = 0 := by
  simp only [frameDue, Bool.and_eq_true, decide_eq_true_eq, beq_iff_eq]

theorem rxSample_of_idle {s : State} (v : Sample) (hidle : s.rx.state = .idle) : s.rxSample v = s := if_pos hidle

/-- R207: in a session a sample is taken, and analysed where it completes a frame. -/
theorem rxSample_of_session {s : State} {sn : RxSnap} (v : Sample) (hne : s.rx.state ≠ .idle)
    (hsn : s.rxSnap = some sn) :
    s.rxSample v = if frameDue sn (s.rx.n + 1) = true then
      (s.takeSample v).analyse sn (specMag sn.wf (frameSamples sn (s.rx.x ++ [v]) s.rx.t)) else s.takeSample v := by
  rcases rxSample_cases s v with ⟨-, hidle | hnone⟩ | ⟨sn', -, hsn', hcase⟩
  · exact absurd hidle hne
  · cases hnone.symm.trans hsn
  · obtain rfl := Option.some.inj (hsn'.symm.trans hsn)
    rcases hcase with ⟨hdue, h⟩ | ⟨hdue, h⟩
    · rw [h, hdue, if_neg Bool.false_ne_true]
    · rw [h, if_pos hdue]

/-- R200: an offered sample is taken off the schedule in every state of the engine. -/
theorem step_of_sourceOffers {s : State} {v : Sample} {rest : List Input} (hin : s.inputs = .sourceOffers v :: rest)
    (hrst : s.rstAsserted = false) :
    step s = .next (State.rxSample { s with inputs := rest, port := .none } v) := step_of_inputs hrst hin

/-- R207: the step of a sample that completes an analysis frame. -/
theorem step_of_sourceOffers_frame {s : State} {v : Sample} {rest : List Input} {sn : RxSnap}
    (hin : s.inputs = .sourceOffers v :: rest) (hrst : s.rstAsserted = false) (hne : s.rx.state ≠ .idle)
    (hsn : s.rxSnap = some sn) (hle : sn.n ≤ s.rx.n + 1) (hmod : (s.rx.n + 1 - sn.n) % sn.h = 0) :
    step s = .next ((State.takeSample { s with inputs := rest, port := .none } v).analyse sn
      (specMag sn.wf (frameSamples sn (s.rx.x ++ [v]) s.rx.t))) := by
  rw [step_of_sourceOffers hin hrst, rxSample_of_session (s := { s with inputs := rest, port := .none }) v hne hsn,
    if_pos ((frameDue_iff ..).2 ⟨hle, hmod⟩)]

/-- R71: the session's samples and their count, the frames' count and the detector's history. -/
def RxEngine.history (rx : RxEngine) : List Sample × Nat × Nat × List Word := (rx.x, rx.n, rx.t, rx.hist)

theorem State.assemble_history (s : State) (sn : RxSnap) (r : Region) :
    (s.assemble sn r).rx.history = s.rx.history := by
  rcases assemble_cases s sn r with ⟨r1, -, h⟩ | ⟨r1, code, reason, c, p, -, h⟩ <;> rw [h]
  · rfl
  · rw [endRegion_rx]
    rfl

/-- R220: a frame's energy goes to the history, and neither a lock nor a region's symbol writes it. -/
theorem State.frame_history (s : State) (sn : RxSnap) (t : Nat) (mag : Nat → Word) :
    (s.frame sn t mag).rx.history = (s.recordEnergy sn mag).rx.history := by
  rcases frame_cases s sn t mag with ⟨-, -, h⟩ | ⟨-, -, -, -, h⟩ | ⟨r, -, -, -, h⟩ <;> rw [h]
  · rfl
  · exact State.assemble_history ..

/-- R207: the sample and its frame in the session's history. -/
theorem State.analyse_takeSample_history (s : State) (v : Sample) (sn : RxSnap) (mag : Nat → Word) :
    ((s.takeSample v).analyse sn mag).rx.history =
      (s.rx.x ++ [v], s.rx.n + 1, s.rx.t + 1, s.rx.hist ++ [mag (sn.bin.getD sn.m 0)]) := by
  rw [analyse_eq, State.frame_history]
  rfl

/-- R210: the MAG buffer's words after an analysis frame. -/
theorem State.magWord_analyse (s : State) (sn : RxSnap) (mag : Nat → Word) {k : Nat} (hk : k ≤ 2048) :
    (s.analyse sn mag).magWord k =
      if s.settings.magFreeze = true then s.magWord k else if k ≤ sn.n / 2 then mag k else 0 := by
  obtain ⟨m, hframe, hm⟩ := State.beginFrame_frame s sn mag
  have hmag : (s.analyse sn mag).mag = m := by rw [analyse_eq, State.frame_mag, hframe]
  rw [State.magWord, hmag, State.analyse_resets, hm]
  split
  · rfl
  · rw [read_magImage _ _ _ hk, Option.getD_some]

theorem State.txByte_analyse (s : State) (sn : RxSnap) (mag : Nat → Word) (k : Nat) :
    (s.analyse sn mag).txByte k = s.txByte k := by
  rw [State.txByte, State.analyse_txRam, State.analyse_resets, State.txByte]

/-- Settles O48: RX-SAMPLE while IDLE, between frames, and on a frame; the frame's history and MAG buffer by the laws
above, and the rest stands. -/
theorem rxSampleTakesOneSample : Obligations.RxSampleTakesOneSample := by
  refine ⟨fun s v rest hin hrst hidle => ?idle, fun s v rest sn hin hrst hne hsn hno => ?noFrame,
    fun s v rest sn t hin hrst hne hsn hle hmod hstep => ?frame⟩
  case idle =>
    rw [step_of_sourceOffers hin hrst, rxSample_of_idle (s := { s with inputs := rest, port := .none }) v hidle]
  case noFrame =>
    rw [step_of_sourceOffers hin hrst, rxSample_of_session (s := { s with inputs := rest, port := .none }) v hne hsn,
      if_neg (mt (frameDue_iff ..).1 hno)]
    rfl
  case frame =>
    intro mag
    obtain rfl := Host.Outcome.next.inj (hstep.symm.trans (step_of_sourceOffers_frame hin hrst hne hsn hle hmod))
    have hhistory := State.analyse_takeSample_history { s with inputs := rest, port := .none } v sn mag
    simp only [RxEngine.history, Prod.mk.injEq] at hhistory
    obtain ⟨hx, hn, ht, hhist⟩ := hhistory
    exact ⟨hx, hn, ht, hhist, fun k hk => State.magWord_analyse _ sn mag hk, State.analyse_rxSnap ..,
      State.analyse_tx .., State.analyse_settings .., State.txByte_analyse _ sn mag⟩

end Sys2Proof.Machine
end

section
/-! PROOF. The detector (R222 to R225): the preamble correlation, a steady tone and silence, and the lock rule. -/

namespace Sys2Proof.Machine

open Sys2Proof Sys2Proof.Safety

/-! The preamble correlation (R223). -/

/-- R223: slots of one energy add up to their number times that energy. -/
theorem slotEnergy_of_steady {off : List Nat} {hist : List Word} {t0 : Nat} {c : Word} (v : Bool)
    (hc : ∀ o ∈ off, hist.getD (t0 + o) 0 = c) :
    slotEnergy off hist t0 v = (preamble.zip off).countP (fun p => p.1 == v) * c.toNat := by
  have henergy : ∀ p ∈ (preamble.zip off).filter (fun p => p.1 == v), energyAt hist (t0 + p.2) = c.toNat :=
    fun p hp => congrArg BitVec.toNat (hc p.2 (List.of_mem_zip (List.mem_of_mem_filter hp)).2)
  rw [slotEnergy, List.map_congr_left henergy, List.map_const', List.sum_replicate, smul_eq_mul,
    List.countP_eq_length_filter]

/-- R148, R221: thirteen offsets meet each slot of the preamble once. -/
theorem countP_zip_preamble {off : List Nat} (hlen : off.length = 13) (v : Bool) :
    (preamble.zip off).countP (fun p => p.1 == v) = preamble.count v := by
  have hfst : (preamble.zip off).map Prod.fst = preamble := List.map_fst_zip (Nat.le_of_eq hlen.symm)
  calc (preamble.zip off).countP (fun p => p.1 == v)
      = ((preamble.zip off).map Prod.fst).count v := by rw [List.count, List.countP_map]; rfl
    _ = preamble.count v := by rw [hfst]

/-- R223: the weights balance the nine on slots against the four off slots, so a steady tone correlates to 0. -/
theorem correlation_of_steady {off : List Nat} {hist : List Word} {t0 : Nat} {c : Word} (hlen : off.length = 13)
    (hc : ∀ o ∈ off, hist.getD (t0 + o) 0 = c) : correlation off hist t0 = 0 := by
  have hon : slotEnergy off hist t0 true = 9 * c.toNat := by
    rw [slotEnergy_of_steady true hc, countP_zip_preamble hlen]
    rfl
  have hoff : slotEnergy off hist t0 false = 4 * c.toNat := by
    rw [slotEnergy_of_steady false hc, countP_zip_preamble hlen]
    rfl
  rw [correlation, hon, hoff]
  omega

/-- R222, R223: silence correlates to 0, whatever the offsets. -/
theorem correlation_of_silence {hist : List Word} (h : ∀ e ∈ hist, e = 0) (off : List Nat) (t0 : Nat) :
    correlation off hist t0 = 0 := by
  have hzero (k : Nat) : hist.getD k 0 = 0 := by
    by_cases hk : k < hist.length
    · rw [List.getD_eq_getElem _ _ hk]
      exact h _ (List.getElem_mem hk)
    · exact List.getD_eq_default _ _ (Nat.le_of_not_lt hk)
  have henergy (v : Bool) : slotEnergy off hist t0 v = 0 := slotEnergy_of_steady v fun o _ => hzero (t0 + o)
  rw [correlation, henergy, henergy]
  rfl

/-- R224: the conditions on a candidate. -/
theorem candidateTaken_iff (sn : RxSnap) (hist : List Word) (t0 : Nat) :
    candidateTaken sn hist t0 = true ↔
      0 < correlation sn.off hist t0 ∧ 36 * (sn.minSig.toNat : Int) ≤ correlation sn.off hist t0 ∧
        correlation sn.off hist (t0 + 1) ≤ correlation sn.off hist t0 := by
  simp only [candidateTaken, Bool.and_eq_true, decide_eq_true_eq, and_assoc]

theorem candidateTaken_of_correlation_zero {sn : RxSnap} {hist : List Word} {t0 : Nat}
    (h : correlation sn.off hist t0 = 0) : candidateTaken sn hist t0 = false := by
  refine Bool.eq_false_iff.2 fun htaken => ?_
  have hpos := ((candidateTaken_iff ..).1 htaken).1
  exact absurd h (Int.ne_of_gt hpos)

/-- Settles O50: the sums over the preamble's slots written out, and the balance of their weights. -/
theorem preambleCorrelation : Obligations.PreambleCorrelation := by
  refine ⟨fun hist t0 o0 o1 o2 o3 o4 o5 o6 o7 o8 o9 o10 o11 o12 => ?slots,
    fun hist off t0 c hlen hc => correlation_of_steady hlen hc,
    fun sn hist t0 c hlen hc => candidateTaken_of_correlation_zero (correlation_of_steady hlen hc)⟩
  intro e
  have hon : slotEnergy [o0, o1, o2, o3, o4, o5, o6, o7, o8, o9, o10, o11, o12] hist t0 true =
      e o0 + e o1 + e o2 + e o3 + e o4 + e o7 + e o8 + e o10 + e o12 := by
    simp [slotEnergy, preamble, energyAt, e, add_assoc]
  have hoff : slotEnergy [o0, o1, o2, o3, o4, o5, o6, o7, o8, o9, o10, o11, o12] hist t0 false =
      e o5 + e o6 + e o9 + e o11 := by
    simp [slotEnergy, preamble, energyAt, e, add_assoc]
  rw [correlation, hon, hoff]

/-! The lock (R224, R225). -/

theorem State.detect_of_taken {s : State} {sn : RxSnap} {t : Nat} (hk : sn.k + 1 ≤ t)
    (hscan : s.rx.scanStart ≤ t - sn.k - 1) (htaken : candidateTaken sn s.rx.hist (t - sn.k - 1) = true) :
    s.detect sn t = s.lock sn (t - sn.k - 1) (correlation sn.off s.rx.hist (t - sn.k - 1)) := by
  rcases detect_cases s sn t with ⟨hno, -⟩ | ⟨-, -, -, h⟩
  · exact absurd ⟨hk, hscan, htaken⟩ hno
  · exact h

theorem State.detect_of_not_taken {s : State} {sn : RxSnap} {t : Nat}
    (hno : ¬(sn.k + 1 ≤ t ∧ s.rx.scanStart ≤ t - sn.k - 1 ∧ candidateTaken sn s.rx.hist (t - sn.k - 1) = true)) :
    s.detect sn t = s := by
  rcases detect_cases s sn t with ⟨-, h⟩ | ⟨hk, hscan, htaken, -⟩
  · exact h
  · exact absurd ⟨hk, hscan, htaken⟩ hno

/-- R225: WINDOW_FIT makes the first symbol's frame come after the frame of the lock. -/
theorem lt_symbolFrame_of_lock {sn : RxSnap} {t : Nat} (hsn : snapOk sn) (ht : sn.k + 1 ≤ t) :
    t < symbolFrame sn (t - sn.k - 1) 0 := by
  obtain ⟨⟨-, -, hcome, -⟩, -⟩ := (regionOk_iff ..).1 (newRegion_regionOk 0 0 hsn ht)
  exact hcome

/-- Settles O51: the candidate's conditions spelled out, the region a lock opens, and its first symbol's frame. -/
theorem lockOpensARegion : Obligations.LockOpensARegion := by
  refine ⟨fun s sn t => ?rule, fun sn t hsn ht => lt_symbolFrame_of_lock hsn ht⟩
  intro t0 c0 c1
  refine ⟨fun ⟨hk, hscan, hcorr⟩ => ?lock, fun hno => State.detect_of_not_taken ?noLock⟩
  case lock =>
    rw [State.detect_of_taken hk hscan ((candidateTaken_iff ..).2 hcorr)]
    rfl
  case noLock => rwa [candidateTaken_iff]

end Sys2Proof.Machine
end

section
/-! PROOF. A completed frame (R220, R207): recorded, and then searched for a lock or given to the region in progress. -/

namespace Sys2Proof.Machine

open Sys2Proof Sys2Proof.Safety

/-! Where a frame goes (R220). -/

theorem State.frame_of_scanning {s : State} (h : s.rx.state = .scanning) (sn : RxSnap) (t : Nat) (mag : Nat → Word) :
    s.frame sn t mag = (s.recordEnergy sn mag).detect sn t := by
  unfold State.frame
  rw [h]
  rfl

theorem State.frame_of_region {s : State} (h : s.rx.state = .locked ∨ s.rx.state = .demod) (sn : RxSnap) (t : Nat)
    (mag : Nat → Word) : s.frame sn t mag = (s.recordEnergy sn mag).regionFrame sn t mag := by
  unfold State.frame
  rcases h with h | h <;> rw [h] <;> rfl

theorem State.regionFrame_of_ne {s : State} {sn : RxSnap} {r : Region} {t : Nat} {mag : Nat → Word}
    (hreg : s.rx.reg = some r) (ht : t ≠ r.tf) : s.regionFrame sn t mag = s := by
  simp only [State.regionFrame, hreg, ht, if_false]

theorem State.regionFrame_of_eq {s : State} {sn : RxSnap} {r : Region} {t : Nat} {mag : Nat → Word}
    (hreg : s.rx.reg = some r) (ht : t = r.tf) :
    s.regionFrame sn t mag = (s.demodulate sn r mag).assemble sn (demodRegion sn r (toneMags sn mag)) := by
  simp only [State.regionFrame, hreg, ht, if_true]

theorem State.assemble_of_goOn {s : State} {sn : RxSnap} {r r' : Region}
    (h : assembleRegion s.params.maxLen sn r = .goOn r') :
    s.assemble sn r = { s with rx := { s.rx with reg := some r' } } := by
  simp only [State.assemble, h]

theorem State.assemble_of_finish {s : State} {sn : RxSnap} {r r' : Region} {code : OutcomeCode} {reason : Reason}
    {c : Nat} {payload : Option (List Byte)}
    (h : assembleRegion s.params.maxLen sn r = .finish r' code reason c payload) :
    s.assemble sn r = s.endRegion sn r' code reason c payload := by
  simp only [State.assemble, h]

/-! The sample that completes a frame (R207). -/

theorem State.analyse_of_scanning {s : State} (h : s.rx.state = .scanning) (v : Sample) (sn : RxSnap)
    (mag : Nat → Word) :
    (s.takeSample v).analyse sn mag = (s.frameRecorded sn v mag).detect sn s.rx.t :=
  (analyse_eq ..).trans (State.frame_of_scanning (s := (s.takeSample v).beginFrame sn mag) h sn s.rx.t mag)

theorem State.analyse_of_region {s : State} (h : s.rx.state = .locked ∨ s.rx.state = .demod) (v : Sample)
    (sn : RxSnap) (mag : Nat → Word) :
    (s.takeSample v).analyse sn mag = (s.frameRecorded sn v mag).regionFrame sn s.rx.t mag :=
  (analyse_eq ..).trans (State.frame_of_region (s := (s.takeSample v).beginFrame sn mag) h sn s.rx.t mag)

/-- R210: a recorded frame has the MAG buffer that the whole step leaves, and differs else in the RX engine alone. -/
theorem State.frameRecorded_eq_with (s : State) (sn : RxSnap) (v : Sample) (mag : Nat → Word) :
    s.frameRecorded sn v mag =
      { s with
        mag := ((s.takeSample v).analyse sn mag).mag
        rx := { s.rx with
          x := s.rx.x ++ [v], n := s.rx.n + 1, t := s.rx.t + 1
          hist := s.rx.hist ++ [mag (sn.bin.getD sn.m 0)] } } := by
  obtain ⟨m, hbegin, -⟩ := State.beginFrame_frame (s.takeSample v) sn mag
  rw [analyse_eq, State.frame_mag, State.frameRecorded, hbegin]
  rfl

/-- Settles O49: the step is the frame recorded and handed on, to the detector or to the region's next symbol. -/
theorem framesGoToTheDetectorOrTheRegion : Obligations.FramesGoToTheDetectorOrTheRegion := by
  intro s v rest sn t hin hrst hne hsn hle hmod hstep mag rx s1
  have ht : t = (State.takeSample { s with inputs := rest, port := .none } v).analyse sn mag :=
    Host.Outcome.next.inj (hstep.symm.trans (step_of_sourceOffers_frame hin hrst hne hsn hle hmod))
  have hs1 : State.frameRecorded { s with inputs := rest, port := .none } sn v mag = s1 := by
    rw [State.frameRecorded_eq_with, ← ht]
  refine ⟨fun hscan => ?scanning, fun r hregion hreg => ?region⟩
  case scanning =>
    rw [← hs1, ht]
    exact State.analyse_of_scanning (s := { s with inputs := rest, port := .none }) hscan v sn mag
  case region =>
    have hframe : t = s1.regionFrame sn s.rx.t mag := by
      rw [← hs1, ht]
      exact State.analyse_of_region (s := { s with inputs := rest, port := .none }) hregion v sn mag
    refine ⟨fun hwait => hframe.trans (State.regionFrame_of_ne hreg hwait), fun hdue => ?_⟩
    intro r1 s2
    have hassemble : t = s2.assemble sn r1 := hframe.trans (State.regionFrame_of_eq hreg hdue)
    exact ⟨fun r2 hgo => hassemble.trans (State.assemble_of_goOn hgo),
      fun r2 code reason c payload hend => hassemble.trans (State.assemble_of_finish hend)⟩

end Sys2Proof.Machine
end

section
/-! PROOF. A session of silence (R227): it starts so, stays so, and ends with NO_SIGNAL. -/

namespace Sys2Proof.Machine

open Sys2Proof Sys2Proof.Safety

theorem State.detect_of_silence {s : State} (h : SilentSession s) (sn : RxSnap) (t : Nat) : s.detect sn t = s := by
  obtain ⟨-, -, -, hhist⟩ := h
  have hfree := candidateTaken_of_correlation_zero (correlation_of_silence hhist sn.off (t - sn.k - 1))
  refine State.detect_of_not_taken fun ⟨_, _, htaken⟩ => ?_
  exact Bool.false_ne_true (hfree.symm.trans htaken)

theorem takeSample_silentSession {s : State} (h : SilentSession s) : SilentSession (s.takeSample 0) := by
  obtain ⟨hscan, hany, hx, hhist⟩ := h
  exact ⟨hscan, hany, List.forall_mem_append.2 ⟨hx, fun _ hv => List.mem_singleton.1 hv⟩, hhist⟩

/-- R206, R222: a frame of a silent session has the energy 0. -/
theorem specMag_of_silentSession {s : State} (h : SilentSession s) (sn : RxSnap) (k : Nat) :
    specMag sn.wf (frameSamples sn (s.rx.x ++ [0]) s.rx.t) k = 0 := by
  obtain ⟨-, -, hx, -⟩ := takeSample_silentSession h
  exact specMag_silence sn.wf k fun v hv => hx v (List.mem_of_mem_drop (List.mem_of_mem_take hv))

theorem frameRecorded_silentSession {s : State} (h : SilentSession s) (sn : RxSnap) {mag : Nat → Word}
    (hmag : ∀ k, mag k = 0) : SilentSession (s.frameRecorded sn 0 mag) := by
  obtain ⟨hscan, hany, hx, hhist⟩ := takeSample_silentSession h
  exact ⟨hscan, hany, hx,
    List.forall_mem_append.2 ⟨hhist, fun e he => (List.mem_singleton.1 he).trans (hmag _)⟩⟩

/-- R227: a sample of 0 keeps a silent session silent; no result is pushed and no event is set. -/
theorem rxSample_silentSession {s : State} (h : SilentSession s) :
    SilentSession (s.rxSample 0) ∧ (s.rxSample 0).fifo = s.fifo ∧ (s.rxSample 0).irqStatus = s.irqStatus := by
  rcases rxSample_cases s 0 with ⟨he, -⟩ | ⟨sn, -, -, ⟨-, he⟩ | ⟨-, he⟩⟩ <;> rw [he]
  · exact ⟨h, rfl, rfl⟩
  · exact ⟨takeSample_silentSession h, rfl, rfl⟩
  · have hrec := frameRecorded_silentSession h sn (specMag_of_silentSession h sn)
    obtain ⟨hscan, -⟩ := h
    rw [State.analyse_of_scanning hscan, State.detect_of_silence hrec]
    refine ⟨hrec, State.frameRecorded_fifo .., ?_⟩
    rw [State.frameRecorded_eq_with]

/-- R201: a start that is not turned away hears nothing yet. -/
theorem silentSession_of_rxEnable {s t : State} (h : exec .rxEnable s = .next t) (hidle : s.rx.state = .idle)
    (hvalid : t.rx.outcome ≠ .invalidSettings) : SilentSession t := by
  rcases execRxEnable_cases h with ⟨hbusy, -⟩ | ⟨-, -, rfl⟩ | ⟨ec, margin, -, -, -, -, rfl⟩
  · exact absurd hidle hbusy
  · exact absurd rfl hvalid
  · exact ⟨rfl, rfl, fun _ hv => absurd hv List.not_mem_nil, fun _ he => absurd he List.not_mem_nil⟩

/-- R260: RX_FINISH of a scanning session that has not locked. -/
theorem exec_rxFinish_of_no_lock {s : State} (hscan : s.rx.state = .scanning) (hany : s.rx.lockedAny = false) :
    exec .rxFinish s = .next
      { s with
        irqStatus := s.irqStatus ||| 0x08
        rx := { s.rx with state := .idle, reg := none, outcome := .noSignal } } := by
  have hregion : s.truncateRegion = s := by simp [State.truncateRegion, hscan]
  rw [exec, execRxFinish, hregion, if_neg (by simp [hscan]), State.closeSession, hany]
  rfl

/-- Settles O52: the start, the invariant of silence under a sample of 0, and the end. -/
theorem silentSessionFindsNoSignal : Obligations.SilentSessionFindsNoSignal := by
  refine ⟨fun s t h hidle hvalid => silentSession_of_rxEnable h hidle hvalid,
    fun s t rest hs hin hrst hstep => ?sample, fun s ⟨hscan, hany, _⟩ => exec_rxFinish_of_no_lock hscan hany⟩
  obtain rfl := Host.Outcome.next.inj (hstep.symm.trans (step_of_sourceOffers hin hrst))
  have hs' : SilentSession { s with inputs := rest, port := .none } := hs
  exact rxSample_silentSession hs'

end Sys2Proof.Machine
end

section
/-! PROOF. The demodulator (R230 to R234): the symbol decision, and what Demod adds to a region. -/

namespace Sys2Proof.Machine

open Sys2Proof

/-! The symbol decision (R232). -/

theorem decideSymbol_eq_some_iff (margin w : Nat) (m : List Nat) :
    decideSymbol margin m = some w ↔
      0 < greatest m ∧ (8 + margin) * runnerUp m ≤ 8 * greatest m ∧ winner m = w := by
  unfold decideSymbol
  split
  · rename_i hno
    simp only [reduceCtorEq, false_iff]
    omega
  · rename_i hyes
    rw [Option.some.injEq]
    omega

/-- R232: the winner is the one tone that no tone exceeds and that every tone before it falls short of. -/
theorem winner_eq_iff {m : List Nat} (hm : m ≠ []) (w : Nat) :
    winner m = w ↔ w < m.length ∧ (∀ k, k < m.length → m.getD k 0 ≤ m.getD w 0) ∧
      ∀ k, k < w → m.getD k 0 < m.getD w 0 := by
  obtain ⟨hlt, hgreatest, hleast⟩ := winner_spec m hm
  constructor
  · rintro rfl
    rw [hgreatest]
    exact ⟨hlt, fun k _ => getD_le_greatest m k, hleast⟩
  · rintro ⟨-, hmax, hfirst⟩
    have hle := hmax _ hlt
    rcases lt_trichotomy (winner m) w with hbefore | heq | hafter
    · exact absurd (hfirst _ hbefore) (Nat.not_lt.2 (hgreatest ▸ getD_le_greatest m w))
    · exact heq
    · exact absurd (hleast w hafter) (Nat.not_lt.2 (hgreatest ▸ hle))

/-- R232: to bound the runner-up is to bound every tone but the winner. -/
theorem mul_runnerUp_le_iff {m : List Nat} (hlen : 2 ≤ m.length) (a b : Nat) :
    a * runnerUp m ≤ b ↔ ∀ k, k < m.length → k ≠ winner m → a * m.getD k 0 ≤ b := by
  constructor
  · exact fun h k hk hne => (Nat.mul_le_mul_left a (le_runnerUp m k hk hne)).trans h
  · intro h
    obtain ⟨k, hk, hne, he⟩ := exists_runnerUp m hlen
    exact he ▸ h k hk hne

/-- R232: the decision in terms of the tones. -/
theorem decideSymbol_eq_some_iff_dominates {margin w : Nat} {m : List Nat} (hlen : 2 ≤ m.length) :
    decideSymbol margin m = some w ↔
      w < m.length ∧ 0 < m.getD w 0 ∧ (∀ k, k < m.length → m.getD k 0 ≤ m.getD w 0) ∧
        (∀ k, k < w → m.getD k 0 < m.getD w 0) ∧
        ∀ k, k < m.length → k ≠ w → (8 + margin) * m.getD k 0 ≤ 8 * m.getD w 0 := by
  have hm : m ≠ [] := List.ne_nil_of_length_pos (by omega)
  obtain ⟨-, hgreatest, -⟩ := winner_spec m hm
  rw [decideSymbol_eq_some_iff, mul_runnerUp_le_iff hlen, ← hgreatest]
  constructor
  · rintro ⟨hpos, hmargin, hw⟩
    obtain ⟨hlt, hmax, hfirst⟩ := (winner_eq_iff hm w).1 hw
    subst hw
    exact ⟨hlt, hpos, hmax, hfirst, hmargin⟩
  · rintro ⟨hlt, hpos, hmax, hfirst, hmargin⟩
    have hw := (winner_eq_iff hm w).2 ⟨hlt, hmax, hfirst⟩
    subst hw
    exact ⟨hpos, hmargin, rfl⟩

/-- R232: a tie for the maximum is an erasure under every positive margin. -/
theorem decideSymbol_of_tie {margin j k : Nat} {m : List Nat} (hmargin : 0 < margin) (hjk : j < k) (hk : k < m.length)
    (htie : m.getD j 0 = m.getD k 0) (hmax : ∀ l, l < m.length → m.getD l 0 ≤ m.getD j 0) :
    decideSymbol margin m = none := by
  refine Option.eq_none_iff_forall_ne_some.2 fun w hw => ?_
  obtain ⟨hlt, hpos, -, -, hdominates⟩ := (decideSymbol_eq_some_iff_dominates (by omega)).1 hw
  obtain ⟨l, hl, hne, htop⟩ : ∃ l, l < m.length ∧ l ≠ w ∧ m.getD w 0 ≤ m.getD l 0 := by
    rcases eq_or_ne j w with rfl | hne
    · exact ⟨k, hk, by omega, htie.le⟩
    · exact ⟨j, by omega, hne, hmax w hlt⟩
  have hbelow := hdominates l hl hne
  have hextra : m.getD l 0 ≤ margin * m.getD l 0 := Nat.le_mul_of_pos_left _ hmargin
  rw [Nat.add_mul] at hbelow
  omega

/-- R232: a decided symbol gives its bits, most significant first. -/
theorem getElem?_symbolBits_some {b k : Nat} (w : Nat) (hk : k < b) :
    (symbolBits b (some w))[k]? = some (.bit (w.testBit (b - 1 - k))) := by
  rw [symbolBits, List.getElem?_map, List.getElem?_range hk, Option.map_some]

/-- Settles O53: the decision by dominance, the tie, the bits, and the examples, which the model evaluates. -/
theorem symbolDecision : Obligations.SymbolDecision :=
  ⟨fun _ _ _ hlen => decideSymbol_eq_some_iff_dominates hlen,
    fun _ _ _ _ hmargin hjk hk htie hmax => decideSymbol_of_tie hmargin hjk hk htie hmax,
    fun _ w _ hk => getElem?_symbolBits_some w hk, fun _ => rfl, by decide⟩

/-! Demod (R233, R234). -/

/-- R233: a saturating sum is the sum, or the greatest word. -/
theorem toNat_satAdd (a : Word) (v : Nat) : (satAdd a v).toNat = min (a.toNat + v) (2 ^ 32 - 1) := by
  rw [satAdd, sat32, BitVec.toNat_ofNat]
  exact Nat.mod_eq_of_lt (by omega)

theorem le_toNat_satAdd (a : Word) (v : Nat) : a.toNat ≤ (satAdd a v).toNat := by
  rw [toNat_satAdd]
  have := a.isLt
  omega

/-- R232: the runner-up is a tone's magnitude, or 0 where there is no other tone. -/
theorem runnerUp_le_greatest (m : List Nat) : runnerUp m ≤ greatest m := by
  rcases (foldl_max_spec (m.eraseIdx (winner m)) 0).2.2 with hzero | hmem
  · exact hzero.le.trans (Nat.zero_le _)
  · exact le_greatest m _ (List.mem_of_mem_eraseIdx hmem)

/-- Settles O54: each field of the region after one more symbol, and the bounds of the two magnitudes. -/
theorem demodulationAddsOneSymbol : Obligations.DemodulationAddsOneSymbol := by
  refine ⟨fun sn r m => ⟨?fields, le_toNat_satAdd .., le_toNat_satAdd .., ?length⟩,
    fun m => ⟨le_greatest m, greatest_mem m, runnerUp_le_greatest m⟩⟩
  case fields =>
    rw [demodRegion]
    split <;> rfl
  case length => simp only [demodRegion, List.length_append, symbolBits_length]

end Sys2Proof.Machine
end

section
/-! PROOF. The end of a region, and the commands that end a session (R256 to R261). -/

namespace Sys2Proof.Machine

open Sys2Proof

/-! The result of a region (R256, R258). -/

/-- R256: the entry, its header fields 0 where no header was decoded and its counts saturated. -/
theorem resultOf_eq (sn : RxSnap) (r : Region) (code : OutcomeCode) (reason : Reason) (c : Nat)
    (payload : Option (List Byte)) :
    resultOf sn r code reason c payload =
      { code := code, reason := reason
        hflags := (r.hdr.map Header.hflags).getD 0, len := (r.hdr.map (fun h => BitVec.ofNat 16 h.len)).getD 0
        start := r.s0, stop := r.s0 + (13 + r.j) * sn.s, freq := sn.base
        corrected := BitVec.ofNat 32 (min c (2 ^ 32 - 1))
        erasures := BitVec.ofNat 32 (min r.erasures (2 ^ 32 - 1))
        strength := BitVec.ofNat 32 (min r.strength (2 ^ 32 - 1))
        symbols := BitVec.ofNat 32 (min r.j (2 ^ 32 - 1)), sumw := r.sumw, sumr := r.sumr
        payload := if code = .ok then payload else none } := by
  unfold resultOf
  cases r.hdr <;> rfl

theorem State.pushResult_of_room {s : State} (h : s.fifo.length < s.params.resultDepth) (res : ResultEntry) :
    s.pushResult res = { s with irqStatus := s.irqStatus ||| 0x04, fifo := s.fifo ++ [res] } :=
  if_pos h

theorem State.pushResult_of_full {s : State} (h : s.params.resultDepth ≤ s.fifo.length) (res : ResultEntry) :
    s.pushResult res = { s with irqStatus := s.irqStatus ||| 0x10, resOvf := true } :=
  if_neg (Nat.not_lt.2 h)

/-- R256: the engine after a region's end, scanning from the first frame at or after it. -/
def RxEngine.rescan (rx : RxEngine) (sn : RxSnap) (r : Region) : RxEngine :=
  { rx with state := .scanning, reg := none, scanStart := cdiv (r.s0 + (13 + r.j) * sn.s) sn.h }

theorem State.endRegion_of_room {s : State} (h : s.fifo.length < s.params.resultDepth) (sn : RxSnap) (r : Region)
    (code : OutcomeCode) (reason : Reason) (c : Nat) (payload : Option (List Byte)) :
    s.endRegion sn r code reason c payload =
      { s with
        irqStatus := s.irqStatus ||| 0x04, fifo := s.fifo ++ [resultOf sn r code reason c payload]
        rx := s.rx.rescan sn r } := by
  rw [State.endRegion, State.pushResult_of_room h]
  rfl

theorem State.endRegion_of_full {s : State} (h : s.params.resultDepth ≤ s.fifo.length) (sn : RxSnap) (r : Region)
    (code : OutcomeCode) (reason : Reason) (c : Nat) (payload : Option (List Byte)) :
    s.endRegion sn r code reason c payload =
      { s with irqStatus := s.irqStatus ||| 0x10, resOvf := true, rx := s.rx.rescan sn r } := by
  rw [State.endRegion, State.pushResult_of_full h]
  rfl

/-- Settles O55: the FIFO has room for the region's entry, or the entry is lost. -/
theorem endOfARegionPushesOneResult : Obligations.EndOfARegionPushesOneResult := by
  intro s sn r code reason c payload stop res rx
  have hres : resultOf sn r code reason c payload = res := resultOf_eq ..
  refine ⟨fun hroom => ?_, fun hfull => State.endRegion_of_full hfull ..⟩
  rw [← hres]
  exact State.endRegion_of_room hroom ..

/-! RX_FINISH (R260). -/

theorem State.truncateRegion_of_scanning {s : State} (h : s.rx.state = .scanning) : s.truncateRegion = s :=
  if_neg (by simp [h])

theorem State.truncateRegion_of_region {s : State} {sn : RxSnap} {r : Region}
    (h : s.rx.state = .locked ∨ s.rx.state = .demod) (hsn : s.rxSnap = some sn) (hreg : s.rx.reg = some r) :
    s.truncateRegion = s.endRegion sn r .frameMalformed .truncated 0 none := by
  simp only [State.truncateRegion, h, if_true, hsn, hreg]

theorem State.closeSession_eq (s : State) :
    s.closeSession =
      { s with
        irqStatus := s.irqStatus ||| 0x08
        rx := { s.rx with
          state := .idle, reg := none, outcome := if s.rx.lockedAny = true then .ok else .noSignal } } := rfl

theorem exec_rxFinish_of_session {s : State} (h : s.rx.state ≠ .idle) :
    exec .rxFinish s = .next s.truncateRegion.closeSession :=
  if_neg h

theorem exec_rxFinish_of_region {s : State} {sn : RxSnap} {r : Region}
    (h : s.rx.state = .locked ∨ s.rx.state = .demod) (hsn : s.rxSnap = some sn) (hreg : s.rx.reg = some r) :
    exec .rxFinish s = .next (s.endRegion sn r .frameMalformed .truncated 0 none).closeSession := by
  have hne : s.rx.state ≠ .idle := by rcases h with h | h <;> simp [h]
  rw [exec_rxFinish_of_session hne, State.truncateRegion_of_region h hsn hreg]

/-- Settles O26: the session closes over the state that the region's end, if there is a region, leaves. -/
theorem rxFinishEndsTheSession : Obligations.RxFinishEndsTheSession := by
  refine ⟨fun s hscan => ?scanning, fun s sn r hregion hsn hreg => ?region, fun s hidle => ?idle⟩
  case scanning =>
    rw [exec_rxFinish_of_session (by simp [hscan]), State.truncateRegion_of_scanning hscan, State.closeSession_eq]
  case region =>
    intro stop res rx
    have hres : resultOf sn r .frameMalformed .truncated 0 none = res := resultOf_eq ..
    rw [exec_rxFinish_of_region hregion hsn hreg]
    refine ⟨fun hroom => ?_, fun hfull => ?_⟩
    · rw [State.endRegion_of_room hroom, State.closeSession_eq, hres, BitVec.or_assoc]
      rfl
    · rw [State.endRegion_of_full hfull, State.closeSession_eq, BitVec.or_assoc]
      rfl
  case idle => rw [exec_of_refused (.inr (.inr (.inl ⟨rfl, hidle⟩))), State.refuse_eq]

/-! RX_ABORT (R261). -/

theorem exec_rxAbort_of_session {s : State} (h : s.rx.state ≠ .idle) :
    exec .rxAbort s = .next
      { s with
        irqStatus := s.irqStatus ||| 0x08
        rx := { s.rx with state := .idle, reg := none, outcome := .cancelled } } :=
  if_neg h

/-- R105: while no session runs RX_ABORT is accepted and has no effect. -/
theorem exec_rxAbort_idle {s : State} (h : s.rx.state = .idle) : exec .rxAbort s = .next s := if_pos h

/-- Settles O27: each abort by whether its engine has something to cancel. -/
theorem rxAbortDropsTheRegion : Obligations.RxAbortDropsTheRegion :=
  ⟨fun _ h => exec_rxAbort_of_session h, fun _ h => exec_rxAbort_idle h, fun _ h => exec_txAbort_idle h⟩

end Sys2Proof.Machine
end

section
/-! PROOF. The stages of assembly and the order of their checks (R250 to R254). -/

namespace Sys2Proof.Machine

open Sys2Proof

/-! The header stage (R250, R251). -/

section
variable {maxLen : Nat} {sn : RxSnap} {r : Region} {h0 h1 h2 : Byte} {hc : Nat}

theorem headerStage_of_unrecoverable
    (hdec : ecDecode sn.ec sn.r 24 (r.cb.take (codedLen sn.ec sn.r 24)) = .unrecoverable hc) :
    headerStage maxLen sn r = .finish r .integrityFailed .ecUnrecoverable hc none := by
  simp only [headerStage, hdec]

/-- R250, R251: the region that shows the header bytes h0, h1, h2. -/
def Region.withHeader (r : Region) (h0 h1 h2 : Byte) : Region :=
  { r with hdr := some { hflags := h0.extractLsb' 0 4, len := 256 * h1.toNat + h2.toNat } }

/-- R251: the checks of a decoded header: the version, the level, the length. -/
theorem headerStage_eq_of_decoded
    (hdec : ecDecode sn.ec sn.r 24 (r.cb.take (codedLen sn.ec sn.r 24)) = .decoded (bitsOf [h0, h1, h2]) hc) :
    headerStage maxLen sn r =
      if h0.extractLsb' 4 4 ≠ 1 then .finish (r.withHeader h0 h1 h2) .frameMalformed .version hc none
      else if h0.extractLsb' 2 2 ≠ sn.ec.code then
        .finish (r.withHeader h0 h1 h2) .frameMalformed .ecMismatch hc none
      else if maxLen < 256 * h1.toNat + h2.toNat then
        .finish (r.withHeader h0 h1 h2) .frameMalformed .length hc none
      else .goOn { r.withHeader h0 h1 h2 with
        d := some (cdiv (codedLen sn.ec sn.r (40 + 8 * (256 * h1.toNat + h2.toNat))) sn.b) } := by
  have hbyte : byteOfBits ((bitsOf [h0, h1, h2]).take 8) = h0 := by
    rw [bitsOf_cons, List.take_left' (byteBits_length h0), byteOfBits_byteBits]
  simp only [headerStage, hdec, hbyte, headerLen_bitsOf]
  rfl

end

/-! The body stage (R253, R254). -/

section
variable {sn : RxSnap} {r : Region} {len c : Nat}

theorem bodyCheck_of_unrecoverable
    (hdec : ecDecode sn.ec sn.r (40 + 8 * len) (r.cb.take (codedLen sn.ec sn.r (40 + 8 * len))) = .unrecoverable c) :
    bodyCheck sn r len = .finish r .integrityFailed .ecUnrecoverable c none := by
  simp only [bodyCheck, hdec]

/-- R254: the received CRC, most significant byte first. -/
theorem toNat_append_byte (hi lo : Byte) : (hi ++ lo).toNat = 256 * hi.toNat + lo.toNat := by
  rw [BitVec.toNat_append, ← Nat.shiftLeft_add_eq_or_of_lt lo.isLt, Nat.shiftLeft_eq, Nat.mul_comm]

theorem eq_append_byte_iff (x : BitVec 16) (hi lo : Byte) :
    x = hi ++ lo ↔ x.toNat = 256 * hi.toNat + lo.toNat := by
  rw [← toNat_append_byte, BitVec.toNat_inj]

/-- R253, R254: the checks of a decoded body: the tolerance, the CRC. -/
theorem bodyCheck_eq_of_decoded {head payload : List Byte} {c1 c0 : Byte} (hhead : head.length = 3)
    (hpayload : payload.length = len)
    (hdec : ecDecode sn.ec sn.r (40 + 8 * len) (r.cb.take (codedLen sn.ec sn.r (40 + 8 * len))) =
      .decoded (bitsOf (head ++ payload ++ [c1, c0])) c) :
    bodyCheck sn r len =
      if sn.errTol.toNat < c then .finish r .integrityFailed .tolerance c none
      else if (crc16 (head ++ payload)).toNat ≠ 256 * c1.toNat + c0.toNat then
        .finish r .integrityFailed .crc c none
      else .finish r .ok .none c (some payload) := by
  have hlen : (head ++ payload).length = 3 + len := by rw [List.length_append, hhead, hpayload]
  have hchecked : (head ++ payload ++ [c1, c0]).take (3 + len) = head ++ payload := List.take_left' hlen
  have hhigh : (head ++ payload ++ [c1, c0]).getD (3 + len) 0 = c1 := by
    rw [List.getD_append_right _ _ _ _ hlen.le, hlen, Nat.sub_self]
    rfl
  have hlow : (head ++ payload ++ [c1, c0]).getD (4 + len) 0 = c0 := by
    rw [List.getD_append_right _ _ _ _ (by omega), hlen, Nat.add_sub_add_right]
    rfl
  have hshown : ((head ++ payload ++ [c1, c0]).drop 3).take len = payload := by
    rw [List.append_assoc, List.drop_left' hhead, List.take_left' hpayload]
  simp only [bodyCheck, hdec, bytesOf_bitsOf, hchecked, hhigh, hlow, hshown, ne_eq, eq_append_byte_iff]

end

/-! When the stages run (R250, R252). -/

section
variable {maxLen : Nat} {sn : RxSnap} {r q : Region}

theorem bodyStage_of_header {h : Header} {d : Nat} (hhdr : r.hdr = some h) (hd : r.d = some d) :
    bodyStage sn r = if r.j < d then .goOn r else bodyCheck sn r h.len := by
  simp only [bodyStage, hhdr, hd]

theorem assembleRegion_of_header {h : Header} (hhdr : r.hdr = some h) :
    assembleRegion maxLen sn r = bodyStage sn r := by
  simp only [assembleRegion, hhdr]

theorem assembleRegion_of_waiting (hhdr : r.hdr = none) (hwait : r.j * sn.b < codedLen sn.ec sn.r 24) :
    assembleRegion maxLen sn r = .goOn r := by
  simp only [assembleRegion, hhdr, hwait, if_true]

theorem assembleRegion_of_headerStage_finish {code : OutcomeCode} {reason : Reason} {c : Nat}
    {payload : Option (List Byte)} (hhdr : r.hdr = none) (hin : codedLen sn.ec sn.r 24 ≤ r.j * sn.b)
    (hstage : headerStage maxLen sn r = .finish q code reason c payload) :
    assembleRegion maxLen sn r = .finish q code reason c payload := by
  simp only [assembleRegion, hhdr, Nat.not_lt.2 hin, if_false, hstage]

theorem assembleRegion_of_headerStage_goOn (hhdr : r.hdr = none) (hin : codedLen sn.ec sn.r 24 ≤ r.j * sn.b)
    (hstage : headerStage maxLen sn r = .goOn q) : assembleRegion maxLen sn r = bodyStage sn q := by
  simp only [assembleRegion, hhdr, Nat.not_lt.2 hin, if_false, hstage]

end

/-- Settles O56: each stage is its chain of checks, of which the first that fails ends the region. -/
theorem assemblyChecksInOrder : Obligations.AssemblyChecksInOrder := by
  refine ⟨fun maxLen sn r => ⟨fun hc hdec => headerStage_of_unrecoverable hdec, fun h0 h1 h2 hc hdec => ?header⟩,
    fun sn r len => ⟨fun c hdec => bodyCheck_of_unrecoverable hdec,
      fun head payload c1 c0 c hhead hpayload hdec => ?body⟩,
    fun maxLen sn r => ⟨fun hhdr hwait => assembleRegion_of_waiting hhdr hwait,
      fun q code reason c payload hhdr hin hstage => assembleRegion_of_headerStage_finish hhdr hin hstage,
      fun q h d hhdr hin hstage hq hd =>
        (assembleRegion_of_headerStage_goOn hhdr hin hstage).trans (bodyStage_of_header hq hd),
      fun h d hhdr hd => (assembleRegion_of_header hhdr).trans (bodyStage_of_header hhdr hd)⟩⟩
  case header =>
    rw [headerStage_eq_of_decoded hdec]
    refine ⟨fun hversion => if_pos hversion, fun hversion hlevel => ?_, fun hversion hlevel hlen => ?_,
      fun hversion hlevel hlen => ?_⟩
    · rw [if_neg (not_not.2 hversion), if_pos hlevel]
      rfl
    · rw [if_neg (not_not.2 hversion), if_neg (not_not.2 hlevel), if_pos hlen]
      rfl
    · rw [if_neg (not_not.2 hversion), if_neg (not_not.2 hlevel), if_neg (Nat.not_lt.2 hlen)]
      rfl
  case body =>
    rw [bodyCheck_eq_of_decoded hhead hpayload hdec]
    refine ⟨fun htol => if_pos htol, fun htol hcrc => ?_, fun htol hcrc => ?_⟩
    · rw [if_neg (Nat.not_lt.2 htol), if_pos hcrc]
    · rw [if_neg (Nat.not_lt.2 htol), if_neg (not_not.2 hcrc)]

end Sys2Proof.Machine
end

section
/-! PROOF. What RX-SAMPLE and RX_FINISH do to the results and the events (R207, R220, R250 to R260): nothing, a lock, or
the end of a region with one of the pairs of code and reason that R255 lists. -/

namespace Sys2Proof.Machine

open Sys2Proof Sys2Proof.Safety

/-! The pairs of code and reason (R255). -/

/-- R255: where assembly ends a region, it is with a listed pair of code and reason. -/
def RegionStep.pairOk : RegionStep → Prop
  | .goOn _ => True
  | .finish _ code reason _ _ => resultPairOk code reason = true

theorem headerStage_pairOk (maxLen : Nat) (sn : RxSnap) (r : Region) : (headerStage maxLen sn r).pairOk := by
  unfold headerStage
  split
  · rfl
  · dsimp only
    split
    · rfl
    · split
      · rfl
      · split
        · rfl
        · exact trivial

theorem bodyCheck_pairOk (sn : RxSnap) (r : Region) (len : Nat) : (bodyCheck sn r len).pairOk := by
  unfold bodyCheck
  split
  · rfl
  · dsimp only
    split
    · rfl
    · split
      · rfl
      · rfl

theorem bodyStage_pairOk (sn : RxSnap) (r : Region) : (bodyStage sn r).pairOk := by
  unfold bodyStage
  split
  · split
    · exact trivial
    · exact bodyCheck_pairOk ..
  · exact trivial

/-- R250, R255: each stage's verdict is a listed pair, so assembly's is. -/
theorem assembleRegion_pairOk (maxLen : Nat) (sn : RxSnap) (r : Region) : (assembleRegion maxLen sn r).pairOk := by
  have hheader := headerStage_pairOk maxLen sn r
  unfold assembleRegion
  split
  · exact bodyStage_pairOk ..
  · split
    · exact trivial
    · split
      · exact bodyStage_pairOk ..
      · exact hheader

/-! What a sample does. -/

/-- The parameters, the transmitter, the events, the results, and the session's outcome and whether it has locked, are
in `t` what they are in `s`. -/
structure SameStatus (s t : State) : Prop where
  params : t.params = s.params
  tx : t.tx = s.tx
  irqStatus : t.irqStatus = s.irqStatus
  resOvf : t.resOvf = s.resOvf
  fifo : t.fifo = s.fifo
  outcome : t.rx.outcome = s.rx.outcome
  lockedAny : t.rx.lockedAny = s.rx.lockedAny

theorem SameStatus.refl (s : State) : SameStatus s s := ⟨rfl, rfl, rfl, rfl, rfl, rfl, rfl⟩

/-- From `s`, where a region is in progress, to `t` that region ends, with a listed pair of code and reason (R255,
R256). -/
def EndsRegion (s t : State) : Prop :=
  (s.rx.state = .locked ∨ s.rx.state = .demod) ∧
    ∃ u sn r code reason c p, SameStatus s u ∧ resultPairOk code reason = true ∧
      t = State.endRegion u sn r code reason c p

/-- What RX-SAMPLE can do to the events and the results. -/
inductive SampleEffect (s t : State) : Prop
  /-- No event (R207). -/
  | quiet (hsame : SameStatus s t)
  /-- A lock (R225). -/
  | locked (hscan : s.rx.state = .scanning) (u : State) (sn : RxSnap) (t0 : Nat) (c0 : Int) (hsame : SameStatus s u)
      (ht : t = u.lock sn t0 c0)
  /-- The end of the region in progress (R250, R256). -/
  | ended (hend : EndsRegion s t)

/-- R207: recording a sample and its frame raises no event. -/
theorem frameRecorded_sameStatus (s : State) (sn : RxSnap) (v : Sample) (mag : Nat → Word) :
    SameStatus s (s.frameRecorded sn v mag) where
  params := State.beginFrame_params ..
  tx := State.beginFrame_tx ..
  irqStatus := State.beginFrame_irqStatus ..
  resOvf := State.beginFrame_resOvf ..
  fifo := State.beginFrame_fifo ..
  outcome := rfl
  lockedAny := rfl

/-- R250: assembly goes on with the region in progress, or ends it. -/
theorem assemble_effect {s u : State} (sn : RxSnap) (r : Region)
    (hregion : s.rx.state = .locked ∨ s.rx.state = .demod) (hsame : SameStatus s u) :
    SampleEffect s (u.assemble sn r) := by
  have hpair := assembleRegion_pairOk u.params.maxLen sn r
  rcases assemble_cases u sn r with ⟨r1, -, h⟩ | ⟨r1, code, reason, c, p, hfin, h⟩
  · rw [h]
    exact .quiet { hsame with }
  · rw [hfin] at hpair
    exact .ended ⟨hregion, u, sn, r1, code, reason, c, p, hsame, hpair, h⟩

/-- R207, R220: every sample has one of the three effects. -/
theorem rxSample_effect (s : State) (v : Sample) : SampleEffect s (s.rxSample v) := by
  rcases rxSample_cases s v with ⟨h, -⟩ | ⟨sn, -, -, ⟨-, h⟩ | ⟨-, h⟩⟩ <;> rw [h]
  · exact .quiet (.refl s)
  · exact .quiet { SameStatus.refl s with }
  · generalize specMag sn.wf (frameSamples sn (s.rx.x ++ [v]) s.rx.t) = mag
    have hsame := frameRecorded_sameStatus s sn v mag
    rw [analyse_eq]
    rcases frame_cases ((s.takeSample v).beginFrame sn mag) sn (s.takeSample v).rx.t mag with
      ⟨-, -, h⟩ | ⟨hscan, -, -, -, h⟩ | ⟨r, hregion, -, -, h⟩ <;> rw [h]
    · exact .quiet hsame
    · exact .locked hscan _ sn _ _ hsame rfl
    · exact assemble_effect (u := State.demodulate (s.frameRecorded sn v mag) sn r mag) sn _ hregion { hsame with }

/-- R260: RX_FINISH ends the region in progress TRUNCATED, or finds none. -/
theorem truncateRegion_effect (s : State) : EndsRegion s s.truncateRegion ∨ s.truncateRegion = s := by
  rcases truncateRegion_cases s with ⟨sn, r, hregion, -, -, h⟩ | ⟨h, -⟩
  · exact .inl ⟨hregion, s, sn, r, _, _, _, _, .refl s, rfl, h⟩
  · exact .inr h

end Sys2Proof.Machine
end

section
/-! PROOF. The outcome codes, the results' reasons and the reserved bits (R23, R31, R255, R281), and how STATUS and
RES_STATUS show them. -/

namespace Sys2Proof.Machine

open Sys2Proof Sys2Proof.Safety

/-! The outcome codes (R255, R281). -/

/-- A step that leaves the outcomes and the results alone keeps their codes. -/
theorem outcomesOk_frame {s t : State} (h : OutcomesOk s) (htx : t.tx.outcome = s.tx.outcome)
    (hrx : t.rx.outcome = s.rx.outcome) (hfifo : t.fifo = s.fifo) : OutcomesOk t := by
  simpa only [OutcomesOk, htx, hrx, hfifo] using h

theorem SameStatus.outcomesOk {s t : State} (h : SameStatus s t) (hs : OutcomesOk s) : OutcomesOk t :=
  outcomesOk_frame hs (congrArg TxEngine.outcome h.tx) h.outcome h.fifo

/-- R255, R256: a region's entry, where there is room for it, has the pair the region ended with. -/
theorem EndsRegion.outcomesOk {s t : State} (h : EndsRegion s t) (hs : OutcomesOk s) : OutcomesOk t := by
  obtain ⟨-, u, sn, r, code, reason, c, p, hsame, hpair, rfl⟩ := h
  obtain ⟨htx, hrx, hfifo⟩ := hsame.outcomesOk hs
  refine ⟨by simpa using htx, by simpa only [endRegion_rx] using hrx, fun e he => ?_⟩
  rw [endRegion_fifo] at he
  split at he
  · rcases List.mem_append.1 he with he | he
    · exact hfifo e he
    · rw [List.mem_singleton.1 he]
      exact hpair
  · exact hfifo e he

theorem rxSample_outcomesOk {s : State} (v : Sample) (hs : OutcomesOk s) : OutcomesOk (s.rxSample v) := by
  cases rxSample_effect s v with
  | quiet hsame => exact hsame.outcomesOk hs
  | locked _ u sn t0 c0 hsame ht =>
    rw [ht]
    exact outcomesOk_frame (hsame.outcomesOk hs) rfl rfl rfl
  | ended hend => exact hend.outcomesOk hs

theorem truncateRegion_outcomesOk {s : State} (hs : OutcomesOk s) : OutcomesOk s.truncateRegion := by
  rcases truncateRegion_effect s with hend | h
  · exact hend.outcomesOk hs
  · rwa [h]

/-- R260: a session closes with OK or NO_SIGNAL. -/
theorem closeSession_outcomesOk {s : State} (hs : OutcomesOk s) : OutcomesOk s.closeSession := by
  obtain ⟨htx, -, hfifo⟩ := hs
  refine ⟨htx, ?_, hfifo⟩
  show rxOutcomeOk (if s.rx.lockedAny = true then OutcomeCode.ok else .noSignal) = true
  split <;> rfl

/-- R183: one sample further, the outcome is OK or what it was. -/
theorem TxEngine.advance_outcome_cases (tx : TxEngine) (sn : TxSnap) (sl : Slot) :
    (tx.advance sn sl).outcome = .ok ∨ (tx.advance sn sl).outcome = tx.outcome := by
  by_cases hi : tx.i + 1 = sn.s
  · by_cases hslot : tx.slot + 1 = tx.plan.length
    · exact .inl (by rw [TxEngine.advance_last sl hi hslot])
    · exact .inr (by rw [TxEngine.advance_nextSlot sl hi hslot]; rfl)
  · exact .inr (by rw [TxEngine.advance_within sl hi]; rfl)

theorem txEmit_outcomesOk {s : State} (hs : OutcomesOk s) : OutcomesOk s.txEmit := by
  rcases txEmit_cases s with h | ⟨sn, sl, hsnap, hslot, -⟩
  · rwa [h]
  · obtain ⟨htx, hrx, hfifo⟩ := hs
    refine ⟨?_, by simpa using hrx, by simpa using hfifo⟩
    rw [State.txEmit_tx hsnap hslot]
    rcases s.tx.advance_outcome_cases sn sl with h | h <;> rw [h]
    · rfl
    · exact htx

/-- Every command that writes an outcome writes one of R281's for its engine (R181, R201, R260, R261). -/
theorem exec_outcomesOk (i : Instr) (s t : State) (hs : OutcomesOk s) (h : exec i s = .next t) : OutcomesOk t := by
  refine exec_keeps (P := OutcomesOk)
    (refuse := fun s hs => outcomesOk_frame hs rfl rfl rfl)
    (issues := fun s v hs => outcomesOk_frame hs rfl rfl rfl)
    (txFailed := ?txFailed)
    (txStarted := fun s ec _ _ _ ⟨_, hrx, hfifo⟩ => ⟨rfl, hrx, hfifo⟩)
    (txAbort := fun s _ hs => outcomesOk_frame hs rfl rfl rfl)
    (rxFailed := fun s _ ⟨htx, _, hfifo⟩ => ⟨htx, rfl, hfifo⟩)
    (rxEnabled := fun s ec margin _ _ ⟨htx, _, hfifo⟩ => ⟨htx, rfl, hfifo⟩)
    (rxFinish := fun s _ hs => closeSession_outcomesOk (truncateRegion_outcomesOk hs))
    (rxAbort := fun s _ ⟨htx, _, hfifo⟩ => ⟨htx, rfl, hfifo⟩)
    (pop := ?pop)
    (softReset := ?softReset) i s t hs h
  case txFailed =>
    rintro s c - (rfl | rfl) ⟨-, hrx, hfifo⟩
    · exact ⟨rfl, hrx, hfifo⟩
    · exact ⟨rfl, hrx, hfifo⟩
  case pop =>
    rintro s e rest hf ⟨htx, hrx, hfifo⟩
    exact ⟨htx, hrx, fun e' he' => hfifo e' (hf ▸ List.mem_cons_of_mem e he')⟩
  case softReset =>
    rintro s t h -
    injection h with h
    subst h
    exact ⟨rfl, rfl, nofun⟩

theorem step_outcomesOk {s t : State} (hs : OutcomesOk s) (h : step s = .next t) : OutcomesOk t :=
  step_keeps (P := OutcomesOk)
    (take := fun s hs => outcomesOk_frame hs rfl rfl rfl)
    (answer := fun s p hs => outcomesOk_frame hs rfl rfl rfl)
    (refuse := fun s hs => outcomesOk_frame hs rfl rfl rfl)
    (command := exec_outcomesOk)
    (write := fun s off v hs => outcomesOk_frame hs (by simp) (by simp) (by simp))
    (emit := fun s _ hs => txEmit_outcomesOk hs)
    (cancel := fun s _ ⟨_, hrx, hfifo⟩ => ⟨rfl, hrx, hfifo⟩)
    (sample := fun s v hs => rxSample_outcomesOk v hs)
    (reset := fun s _ => ⟨rfl, rfl, nofun⟩)
    (release := fun s hs => outcomesOk_frame hs rfl rfl rfl) h hs

/-! The reserved bits of CTRL and ISSUES (R23, R31). -/

theorem reservedBitsOk_frame {s t : State} (h : ReservedBitsOk s) (hsettings : t.settings = s.settings)
    (hissues : t.issues = s.issues) : ReservedBitsOk t := by
  simpa only [ReservedBitsOk, hsettings, hissues] using h

/-- R23: a write to CTRL keeps its reserved bits 0. -/
theorem settings_write_reservedBitsOk {s : State} (r : Reg) (v : Word) (h : ReservedBitsOk s) :
    ReservedBitsOk { s with settings := s.settings.write r v } := by
  obtain ⟨hctrl, hissues⟩ := h
  refine ⟨?_, hissues⟩
  rw [Settings.write_ctrl]
  split
  · rw [BitVec.and_assoc, show ctrlMask &&& ~~~ctrlMask = 0 by decide]
    exact BitVec.and_zero
  · exact hctrl

/-- R31: a word with no bit outside those that ISSUES defines. -/
def issuesWordOk (w : Word) : Prop := w &&& 0x7FFF8000 = 0

theorem issuesWordOk_of_getLsbD {w : Word} {bits : List Nat}
    (hbits : ∀ k ∈ bits, (0x80007FFF : Word).getLsbD k = true)
    (h : ∀ k, k ∉ bits → w.getLsbD k = false) : issuesWordOk w := by
  rw [issuesWordOk, show (0x7FFF8000 : Word) = ~~~0x80007FFF by decide]
  exact and_not_eq_zero fun k _ hclear => h k fun hk =>
    absurd ((hbits k hk).symm.trans hclear) (by decide)

theorem issuesTx_wordOk (p : Params) (st : Settings) : issuesWordOk (issuesTx p st) :=
  issuesWordOk_of_getLsbD (bits := [0, 1, 2, 3, 4, 8, 9, 10, 11]) (by decide)
    fun _ hk => getLsbD_issuesTx_of_not_mem p st hk

theorem issuesRx_wordOk (p : Params) (st : Settings) : issuesWordOk (issuesRx p st) :=
  issuesWordOk_of_getLsbD (bits := [1, 2, 3, 4, 5, 6, 7, 8, 9, 12, 13, 14, 31]) (by decide)
    fun _ hk => getLsbD_issuesRx_of_not_mem p st hk

/-- R121, R122, R129, R181, R201: a command leaves ISSUES alone, or writes a validation's word or 0. -/
theorem exec_issues_cases {i : Instr} {s t : State} (h : exec i s = .next t) :
    t.issues = s.issues ∨ t.issues = issuesTx s.params s.settings ∨ t.issues = issuesRx s.params s.settings ∨
      t.issues = 0 := by
  rcases exec_cases h with ⟨-, rfl⟩ | ⟨-, h⟩ | ⟨-, h⟩ | ⟨-, rfl⟩ | ⟨-, rfl⟩ | ⟨-, h⟩ | ⟨-, h⟩ | ⟨-, h⟩ | ⟨-, h⟩ |
    ⟨-, h⟩
  · exact .inl rfl
  · rcases execTxStart_cases h with ⟨-, rfl⟩ | ⟨-, -, rfl⟩ | ⟨ec, -, -, -, ⟨-, rfl⟩ | ⟨-, rfl⟩⟩
    · exact .inl rfl
    · exact .inr (.inl rfl)
    · exact .inr (.inl rfl)
    · exact .inr (.inl rfl)
  · rcases execTxAbort_cases h with ⟨-, rfl⟩ | ⟨-, rfl⟩
    · exact .inl rfl
    · exact .inl rfl
  · exact .inr (.inl rfl)
  · exact .inr (.inr (.inl rfl))
  · rcases execRxEnable_cases h with ⟨-, rfl⟩ | ⟨-, -, rfl⟩ | ⟨ec, margin, -, -, -, -, rfl⟩
    · exact .inl rfl
    · exact .inr (.inr (.inl rfl))
    · exact .inr (.inr (.inl rfl))
  · rcases execRxFinish_cases h with ⟨-, rfl⟩ | ⟨-, rfl⟩
    · exact .inl rfl
    · exact .inl (State.truncateRegion_issues s)
  · rcases execRxAbort_cases h with ⟨-, rfl⟩ | ⟨-, rfl⟩
    · exact .inl rfl
    · exact .inl rfl
  · rcases execResPop_cases h with ⟨-, rfl⟩ | ⟨e, rest, -, rfl⟩
    · exact .inl rfl
    · exact .inl rfl
  · injection h with h
    subst h
    exact .inr (.inr (.inr rfl))

theorem exec_reservedBitsOk (i : Instr) (s t : State) (hs : ReservedBitsOk s) (h : exec i s = .next t) :
    ReservedBitsOk t := by
  obtain ⟨hctrl, hissues⟩ := hs
  obtain ⟨-, hsettings, -⟩ := exec_sameSetup h
  refine ⟨by rwa [hsettings], ?_⟩
  rcases exec_issues_cases h with h | h | h | h <;> rw [h]
  · exact hissues
  · exact issuesTx_wordOk ..
  · exact issuesRx_wordOk ..
  · exact BitVec.zero_and

theorem step_reservedBitsOk {s t : State} (hs : ReservedBitsOk s) (h : step s = .next t) : ReservedBitsOk t :=
  step_keeps (P := ReservedBitsOk)
    (take := fun s hs => reservedBitsOk_frame hs rfl rfl)
    (answer := fun s p hs => reservedBitsOk_frame hs rfl rfl)
    (refuse := fun s hs => reservedBitsOk_frame hs rfl rfl)
    (command := exec_reservedBitsOk)
    (write := portWrite_keeps
      (status := fun s v hs => reservedBitsOk_frame hs rfl rfl)
      (irqStatus := fun s v hs => reservedBitsOk_frame hs rfl rfl)
      (irqEnable := fun s v hs => reservedBitsOk_frame hs rfl rfl)
      (setting := fun s r v hs => settings_write_reservedBitsOk r v hs)
      (ramByte := fun s k v hs => reservedBitsOk_frame hs (by simp) (by simp)))
    (emit := fun s _ hs => reservedBitsOk_frame hs (by simp) (by simp))
    (cancel := fun s _ hs => reservedBitsOk_frame hs rfl rfl)
    (sample := fun s v hs => reservedBitsOk_frame hs (by simp) (by simp))
    (reset := fun _ _ => show ReservedBitsOk State.reset from ⟨by decide, by decide⟩)
    (release := fun s hs => reservedBitsOk_frame hs rfl rfl) h hs

/-! What STATUS and RES_STATUS show of them (R27, R56, R280). -/

theorem txOutcomeOk_code {c : OutcomeCode} (h : txOutcomeOk c = true) : c.code.toNat ∈ [0, 1, 2, 3, 7] := by
  cases c <;> revert h <;> decide

theorem rxOutcomeOk_code {c : OutcomeCode} (h : rxOutcomeOk c = true) : c.code.toNat ∈ [0, 1, 2, 4, 7] := by
  cases c <;> revert h <;> decide

/-- R255, R280: a result's code is OK, FRAME_MALFORMED or INTEGRITY_FAILED, and its reason is 0 exactly for OK. -/
theorem resultPairOk_code {c : OutcomeCode} {r : Reason} (h : resultPairOk c r = true) :
    c.code.toNat ∈ [1, 5, 6] ∧ (r.code = 0 ↔ c.code.toNat = 1) := by
  cases r <;> rw [resultPairOk, beq_iff_eq] at h <;> subst h <;> decide

/-- Settles O58: the steps keep the codes and the reserved bits, and the status words show the codes as they are. -/
theorem stepKeepsTheOutcomeCodes : Obligations.StepKeepsTheOutcomeCodes := by
  refine ⟨fun s t hs h => step_outcomesOk hs h, fun s t hs h => step_reservedBitsOk hs h,
    fun s ⟨htx, hrx, hpairs⟩ => ?_⟩
  obtain ⟨-, -, -, -, -, htxField, hrxField, -⟩ := s.statusWord_fields
  refine ⟨?tx, ?rx, fun hnil => State.headField_nil hnil _, fun hne => ?result⟩
  case tx =>
    rw [State.readReg, htxField]
    exact txOutcomeOk_code htx
  case rx =>
    rw [State.readReg, hrxField]
    exact rxOutcomeOk_code hrx
  case result =>
    obtain ⟨e, rest, hf⟩ := List.exists_cons_of_ne_nil hne
    obtain ⟨hvalid, -, hcode, hreason, -⟩ := resStatusOf_fields e
    rw [State.readReg, State.headField_cons hf, hcode, hreason]
    exact ⟨hvalid, resultPairOk_code (hpairs e (hf ▸ List.mem_cons_self))⟩

end Sys2Proof.Machine
end

section
/-! PROOF. The interrupt output and the events (R29, R282 to R284): what each step does to IRQ_STATUS, with the event
that each bit it sets records. -/

namespace Sys2Proof.Machine

open Sys2Proof Sys2Proof.Safety

/-! The interrupt output (R283). -/

theorem and_ne_zero_iff {w : Nat} (a b : BitVec w) :
    a &&& b ≠ 0 ↔ ∃ k, k < w ∧ a.getLsbD k = true ∧ b.getLsbD k = true := by
  constructor
  · intro hne
    by_contra hno
    push Not at hno
    refine hne (BitVec.eq_of_getLsbD_eq fun k hk => ?_)
    rw [BitVec.getLsbD_and, BitVec.ofNat_eq_ofNat, BitVec.getLsbD_zero, Bool.and_eq_false_imp]
    exact fun ha => Bool.eq_false_iff.2 (hno k hk ha)
  · rintro ⟨k, -, ha, hb⟩ hzero
    have hk := congrArg (BitVec.getLsbD · k) hzero
    simp [ha, hb] at hk

/-- R283: `irq` is 1 exactly while some event is pending and enabled. -/
theorem State.irq_iff (s : State) :
    s.irq = true ↔ ∃ k, k < 6 ∧ s.irqStatus.getLsbD k = true ∧ s.irqEnable.getLsbD k = true := by
  rw [State.irq, bne_iff_ne, and_ne_zero_iff]

/-- R29, R30: IRQ_STATUS and IRQ_ENABLE read as their bits. -/
theorem State.getLsbD_portRead_irq (s : State) {k : Nat} (hk : k < 6) :
    (s.portRead 0x010).getLsbD k = s.irqStatus.getLsbD k ∧ (s.portRead 0x014).getLsbD k = s.irqEnable.getLsbD k := by
  have hk' : k < 32 := by omega
  rw [s.portRead_of_targetOf (r := .irqStatus) (by decide), s.portRead_of_targetOf (r := .irqEnable) (by decide)]
  simp only [State.readReg, BitVec.getLsbD_setWidth, hk', decide_true, Bool.true_and, and_self]

/-! The events of a step (R282). -/

/-- IRQ_STATUS with the bits of some events set (R29). -/
def withEvents (w : BitVec 6) (es : List IrqEvent) : BitVec 6 := es.foldl (fun w e => w ||| BitVec.twoPow 6 e.bit) w

theorem IrqEvent.bit_lt (e : IrqEvent) : e.bit < 6 := by cases e <;> decide

theorem getLsbD_withEvents (w : BitVec 6) (es : List IrqEvent) (k : Nat) :
    (withEvents w es).getLsbD k = true ↔ w.getLsbD k = true ∨ ∃ e ∈ es, e.bit = k := by
  induction es generalizing w with
  | nil => simp [withEvents]
  | cons e es ih =>
    have hbit : (BitVec.twoPow 6 e.bit).getLsbD k = true ↔ e.bit = k := by
      have hlt := e.bit_lt
      simp only [BitVec.getLsbD_twoPow, Bool.and_eq_true, decide_eq_true_eq]
      omega
    have htail := ih (w ||| BitVec.twoPow 6 e.bit)
    rw [BitVec.getLsbD_or, Bool.or_eq_true, hbit, or_assoc] at htail
    simpa [withEvents] using htail

/-- The head of the schedule offers a sample or writes RX_FINISH: the steps that can end a region (R250, R260). -/
def canEndRegion (s : State) : Prop :=
  (∃ v, s.inputs.head? = some (.sourceOffers v)) ∨ s.inputs.head? = some (.hostWrite 0x008 4 0x11)

/-- The step from `s` to `t` is one of the occasions that R282 gives the event. -/
inductive EventOccurs (s t : State) : IrqEvent → Prop
  /-- TX_START is turned away (R181, R182). -/
  | txFailed (hin : s.inputs.head? = some (.hostWrite 0x008 4 0x01)) (hidle : s.tx.state = .idle)
      (hidle' : t.tx.state = .idle) (hout : t.tx.outcome = .invalidSettings ∨ t.tx.outcome = .capacityExceeded) :
      EventOccurs s t .txDone
  /-- TX-EMIT sends the plan's last sample (R183). -/
  | txSent (hin : s.inputs.head? = some .sinkReady) (hrun : s.tx.state = .run) (hidle' : t.tx.state = .idle)
      (hout : t.tx.outcome = .ok) : EventOccurs s t .txDone
  /-- TX-CANCEL (R185). -/
  | txCancelled (hin : s.inputs.head? = some .txTurn ∨ s.inputs = []) (hen : s.cancelEnabled = true)
      (hidle' : t.tx.state = .idle) (hout : t.tx.outcome = .cancelled) : EventOccurs s t .txDone
  /-- A lock (R225). -/
  | locked (v : Sample) (hin : s.inputs.head? = some (.sourceOffers v)) (hscan : s.rx.state = .scanning)
      (hlocked : t.rx.state = .locked) : EventOccurs s t .rxLock
  /-- A region's result is pushed (R258). -/
  | pushed (hin : canEndRegion s) (hregion : s.rx.state = .locked ∨ s.rx.state = .demod) (hreg : t.rx.reg = none)
      (hroom : s.fifo.length < s.params.resultDepth) (e : ResultEntry) (hfifo : t.fifo = s.fifo ++ [e]) :
      EventOccurs s t .rxResult
  /-- A region's result is dropped (R258). -/
  | dropped (hin : canEndRegion s) (hregion : s.rx.state = .locked ∨ s.rx.state = .demod) (hreg : t.rx.reg = none)
      (hfull : s.params.resultDepth ≤ s.fifo.length) (hfifo : t.fifo = s.fifo) (hovf : t.resOvf = true) :
      EventOccurs s t .resOvf
  /-- RX_ENABLE is turned away for its settings (R201). -/
  | rxFailed (hin : s.inputs.head? = some (.hostWrite 0x008 4 0x10)) (hidle : s.rx.state = .idle)
      (hidle' : t.rx.state = .idle) (hout : t.rx.outcome = .invalidSettings) : EventOccurs s t .rxDone
  /-- RX_FINISH ends a session (R260). -/
  | finished (hin : s.inputs.head? = some (.hostWrite 0x008 4 0x11)) (hne : s.rx.state ≠ .idle)
      (hidle' : t.rx.state = .idle) (hout : t.rx.outcome = if s.rx.lockedAny = true then .ok else .noSignal) :
      EventOccurs s t .rxDone
  /-- RX_ABORT ends a session (R261). -/
  | aborted (hin : s.inputs.head? = some (.hostWrite 0x008 4 0x12)) (hne : s.rx.state ≠ .idle)
      (hidle' : t.rx.state = .idle) (hout : t.rx.outcome = .cancelled) : EventOccurs s t .rxDone
  /-- A word written to CMD is illegal, or its command is refused (R103, R104). -/
  | refused (w : Word) (hin : s.inputs.head? = some (.hostWrite 0x008 4 w))
      (hword : (∀ i, decode w ≠ .ok i) ∨ ∃ i, decode w = .ok i ∧ Refused i s) (herr : t.cmdErr = true) :
      EventOccurs s t .cmdErr

/-- What a step can do to IRQ_STATUS. -/
inductive EventStep (s t : State) : Prop
  /-- It sets the bits of the events that occur, if any (R282). -/
  | raised (es : List IrqEvent) (hes : ∀ e ∈ es, EventOccurs s t e) (hirq : t.irqStatus = withEvents s.irqStatus es)
  /-- The HOST clears the bits it writes 1 to (R29). -/
  | acknowledged (v : Word) (hin : s.inputs.head? = some (.hostWrite 0x010 4 v))
      (hirq : t.irqStatus = s.irqStatus &&& ~~~v.setWidth 6)
  /-- SOFT_RESET and reset clear all (R129, R300). -/
  | cleared (hin : s.inputs.head? = some (.hostWrite 0x008 4 0xA5) ∨ s.inputs.head? = some .resetAssert)
      (hirq : t.irqStatus = 0)

theorem EventStep.quiet {s t : State} (h : t.irqStatus = s.irqStatus) : EventStep s t := .raised [] nofun h

theorem EventStep.single {s t : State} {e : IrqEvent} (he : EventOccurs s t e)
    (h : t.irqStatus = s.irqStatus ||| BitVec.twoPow 6 e.bit) : EventStep s t :=
  .raised [e] (List.forall_mem_singleton.2 he) h

/-- R256, R258: the end of a region is the event of its result, pushed or dropped. -/
theorem endRegion_eventOccurs {s t u : State} (sn : RxSnap) (r : Region) (code : OutcomeCode) (reason : Reason)
    (c : Nat) (p : Option (List Byte)) (hin : canEndRegion s) (hregion : s.rx.state = .locked ∨ s.rx.state = .demod)
    (hsame : SameStatus s u) (hreg : t.rx.reg = none) (hfifo : t.fifo = (u.endRegion sn r code reason c p).fifo)
    (hovf : t.resOvf = (u.endRegion sn r code reason c p).resOvf) :
    EventOccurs s t (if s.fifo.length < s.params.resultDepth then .rxResult else .resOvf) := by
  rw [endRegion_fifo, hsame.fifo, hsame.params] at hfifo
  rw [endRegion_resOvf, hsame.fifo, hsame.params] at hovf
  split
  · rename_i hroom
    rw [if_pos hroom] at hfifo
    exact .pushed hin hregion hreg hroom _ hfifo
  · rename_i hfull
    rw [if_neg hfull] at hfifo
    exact .dropped hin hregion hreg (Nat.not_lt.1 hfull) hfifo (by simp [hovf, hfull])

theorem endRegion_irqStatus_of_same {s u : State} (hsame : SameStatus s u) (sn : RxSnap) (r : Region)
    (code : OutcomeCode) (reason : Reason) (c : Nat) (p : Option (List Byte)) :
    (u.endRegion sn r code reason c p).irqStatus = withEvents s.irqStatus
      [if s.fifo.length < s.params.resultDepth then .rxResult else .resOvf] := by
  rw [endRegion_irqStatus, hsame.irqStatus, hsame.fifo, hsame.params]
  rfl

/-- A region's end does not depend on the schedule or on the port's answer. -/
theorem endsRegion_of_answer {s t : State} {q : PortAnswer} (h : EndsRegion { s.takeInput with port := q } t) :
    EndsRegion s t := by
  obtain ⟨hregion, u, sn, r, code, reason, c, p, hsame, hpair, ht⟩ := h
  exact ⟨hregion, u, sn, r, code, reason, c, p, { hsame with }, hpair, ht⟩

/-- R207, R225, R256: a sample raises the event of its lock or of its region's result. -/
theorem rxSample_eventStep {s : State} {v : Sample} (hin : s.inputs.head? = some (.sourceOffers v)) :
    EventStep s (s.takeInput.rxSample v) := by
  cases rxSample_effect s.takeInput v with
  | quiet hsame => exact .quiet hsame.irqStatus
  | locked hscan u sn t0 c0 hsame ht =>
    rw [ht]
    exact .single (.locked v hin hscan rfl) (congrArg (· ||| _) hsame.irqStatus)
  | ended hend =>
    obtain ⟨hregion, u, sn, r, code, reason, c, p, hsame, -, ht⟩ := endsRegion_of_answer hend
    rw [ht]
    exact .single (endRegion_eventOccurs sn r code reason c p (.inl ⟨v, hin⟩) hregion hsame (by rw [endRegion_rx])
      rfl rfl) (endRegion_irqStatus_of_same hsame sn r code reason c p)

/-- R183: TX-EMIT raises TX_DONE with the plan's last sample alone. -/
theorem txEmit_eventStep {s : State} (hin : s.inputs.head? = some .sinkReady) (hen : s.emitEnabled = true) :
    EventStep s s.takeInput.txEmit := by
  obtain ⟨hrun, -⟩ := s.emitEnabled_iff.1 hen
  rcases txEmit_cases s.takeInput with h | ⟨sn, sl, -, -, ⟨-, h⟩ | ⟨hlast, h⟩⟩ <;> rw [h]
  · exact .quiet rfl
  · exact .quiet rfl
  · obtain ⟨hi, hslot⟩ := (TxEngine.lastSample_iff ..).1 hlast
    have htx : s.takeInput.tx.advance sn sl = _ := TxEngine.advance_last sl hi hslot
    refine .single (.txSent hin hrun ?_ ?_) rfl
    · exact congrArg TxEngine.state htx
    · exact congrArg TxEngine.outcome htx

/-- R260: RX_FINISH raises RX_DONE, after the event of the region it ends, if there is one. -/
theorem rxFinish_eventStep {s : State} (q : PortAnswer) (hin : s.inputs.head? = some (.hostWrite 0x008 4 0x11))
    (hne : s.rx.state ≠ .idle) :
    EventStep s (State.truncateRegion { s.takeInput with port := q }).closeSession := by
  rcases truncateRegion_effect { s.takeInput with port := q } with hend | h
  · obtain ⟨hregion, u, sn, r, code, reason, c, p, hsame, -, ht⟩ := endsRegion_of_answer hend
    have hlocked : (u.endRegion sn r code reason c p).rx.lockedAny = s.rx.lockedAny := by
      rw [endRegion_rx]
      exact hsame.lockedAny
    have hdone : EventOccurs s (u.endRegion sn r code reason c p).closeSession .rxDone :=
      .finished hin hne rfl (by rw [← hlocked]; rfl)
    rw [ht]
    exact .raised [_, .rxDone] (List.forall_mem_cons.2 ⟨endRegion_eventOccurs sn r code reason c p (.inr hin) hregion
      hsame rfl rfl rfl, List.forall_mem_singleton.2 hdone⟩)
      (congrArg (· ||| _) (endRegion_irqStatus_of_same hsame sn r code reason c p))
  · rw [h]
    exact .single (.finished hin hne rfl rfl) rfl

/-- The events of a command (R102), from a state that differs from `s` in the schedule and the port's answer. -/
theorem exec_eventStep {s t : State} {i : Instr} (q : PortAnswer)
    (hin : s.inputs.head? = some (.hostWrite 0x008 4 (encode i)))
    (h : exec i { s.takeInput with port := q } = .next t) : EventStep s t := by
  have hrefuse (href : Refused i s) : EventStep s (State.refuse { s.takeInput with port := q }) :=
    .single (.refused _ hin (.inr ⟨i, decode_encode i, href⟩) rfl) rfl
  rcases exec_cases h with ⟨-, rfl⟩ | ⟨rfl, h⟩ | ⟨-, h⟩ | ⟨-, rfl⟩ | ⟨-, rfl⟩ | ⟨rfl, h⟩ | ⟨rfl, h⟩ | ⟨rfl, h⟩ |
    ⟨rfl, h⟩ | ⟨rfl, h⟩
  · exact .quiet rfl
  · rcases execTxStart_cases h with ⟨hrun, rfl⟩ | ⟨hidle, -, rfl⟩ | ⟨ec, hidle, -, -, ⟨-, rfl⟩ | ⟨-, rfl⟩⟩
    · exact hrefuse (.inl ⟨rfl, hrun⟩)
    · exact .single (.txFailed hin hidle hidle (.inl rfl)) rfl
    · exact .quiet rfl
    · exact .single (.txFailed hin hidle hidle (.inr rfl)) rfl
  · rcases execTxAbort_cases h with ⟨-, rfl⟩ | ⟨-, rfl⟩
    · exact .quiet rfl
    · exact .quiet rfl
  · exact .quiet rfl
  · exact .quiet rfl
  · rcases execRxEnable_cases h with ⟨hbusy, rfl⟩ | ⟨hidle, -, rfl⟩ | ⟨ec, margin, -, -, -, -, rfl⟩
    · exact hrefuse (.inr (.inl ⟨rfl, hbusy⟩))
    · exact .single (.rxFailed hin hidle hidle rfl) rfl
    · exact .quiet rfl
  · rcases execRxFinish_cases h with ⟨hidle, rfl⟩ | ⟨hne, rfl⟩
    · exact hrefuse (.inr (.inr (.inl ⟨rfl, hidle⟩)))
    · exact rxFinish_eventStep q hin hne
  · rcases execRxAbort_cases h with ⟨-, rfl⟩ | ⟨hne, rfl⟩
    · exact .quiet rfl
    · exact .single (.aborted hin hne rfl rfl) rfl
  · rcases execResPop_cases h with ⟨hempty, rfl⟩ | ⟨e, rest, -, rfl⟩
    · exact hrefuse (.inr (.inr (.inr ⟨rfl, hempty⟩)))
    · exact .quiet rfl
  · injection h with h
    subst h
    exact .cleared (.inl hin) rfl

/-- R29, R85: a port write leaves IRQ_STATUS alone, or is a write to it. -/
theorem portWrite_irqStatus_cases (s : State) (off : Offset) (v : Word) :
    (s.portWrite off v).irqStatus = s.irqStatus ∨
    off = 0x010 ∧ (s.portWrite off v).irqStatus = s.irqStatus &&& ~~~v.setWidth 6 := by
  rcases portWrite_cases s off v with ⟨r, hr, h⟩ | ⟨w, -, h⟩ | h <;> rw [h]
  · rcases writeReg_cases s r v with ⟨-, hw⟩ | ⟨rfl, hw⟩ | ⟨-, hw⟩ | hw <;> rw [hw]
    · exact .inl rfl
    · have hunique : ∀ p ∈ regMap, p.2 = .irqStatus → p.1 = 0x010 := by decide
      exact .inr ⟨BitVec.eq_of_toNat_eq (hunique _ (mem_regMap_of_targetOf hr) rfl), rfl⟩
    · exact .inl rfl
    · exact .inl rfl
  · exact .inl (State.writeTxWord_irqStatus ..)
  · exact .inl rfl

/-- Every step leaves IRQ_STATUS alone, or does to it, `rst_n` being released, one of the things of `EventStep`. -/
theorem step_eventStep {s t : State} (h : step s = .next t) :
    t.irqStatus = s.irqStatus ∨ s.rstAsserted = false ∧ EventStep s t := by
  rcases step_cases h with rfl | ⟨-, rfl⟩ | ⟨hrst, hcase⟩
  · exact .inl rfl
  · exact .inl rfl
  · refine .inr ⟨hrst, ?_⟩
    rcases hcase with ⟨hen, hin, rfl⟩ | ⟨p, rfl⟩ | ⟨w, hin, ⟨e, hillegal⟩, rfl⟩ | ⟨w, i, hin, hdecode, he⟩ |
      ⟨off, v, hin, -, -, rfl⟩ | ⟨hin, hen, rfl⟩ | ⟨v, hin, rfl⟩ | ⟨hin, rfl⟩
    · exact .single (.txCancelled (hin.symm.imp_right List.head?_eq_none_iff.1) hen rfl rfl) rfl
    · exact .quiet rfl
    · exact .single (.refused w hin (.inl fun i hi => by cases hillegal.symm.trans hi) rfl) rfl
    · exact exec_eventStep _ ((decode_eq_ok_iff_eq_encode w i).1 hdecode ▸ hin) he
    · rcases portWrite_irqStatus_cases { s.takeInput with port := .written } off v with hsame | ⟨rfl, hirq⟩
      · exact .quiet hsame
      · exact .acknowledged v hin hirq
    · exact txEmit_eventStep hin hen
    · exact rxSample_eventStep hin
    · exact .cleared (.inr hin) rfl

/-- Settles O11: what is raised keeps what is pending, so an event bit goes only where it is acknowledged or cleared. -/
theorem eventBitsStayUntilCleared : Obligations.EventBitsStayUntilCleared := by
  refine ⟨fun s => ?irq, fun s t k h hbit => ?stays⟩
  case irq =>
    rw [s.irq_iff]
    refine exists_congr fun k => and_congr_right fun hk => ?_
    obtain ⟨hstatus, henable⟩ := s.getLsbD_portRead_irq hk
    rw [hstatus, henable]
  case stays =>
    rcases step_eventStep h with hsame | ⟨hrst, hstep⟩
    · exact .inl (hsame ▸ hbit)
    · cases hstep with
      | raised es _ hirq => exact .inl (hirq ▸ (getLsbD_withEvents ..).2 (.inl hbit))
      | acknowledged v hin hirq =>
        by_cases hv : v.getLsbD k = true
        · exact .inr ⟨hrst, .inl ⟨v, hin, hv⟩⟩
        · left
          have hk := BitVec.lt_of_getLsbD hbit
          simp [hirq, hbit, hk, hv]
      | cleared hin _ => exact .inr ⟨hrst, .inr hin⟩

/-- R282: a bit that a step sets is the bit of an event that occurs in it. -/
theorem eventOccurs_of_set {s t : State} {k : Nat} (h : step s = .next t) (hclear : s.irqStatus.getLsbD k = false)
    (hset : t.irqStatus.getLsbD k = true) : s.rstAsserted = false ∧ ∃ e, e.bit = k ∧ EventOccurs s t e := by
  rcases step_eventStep h with hsame | ⟨hrst, hstep⟩
  · rw [hsame, hclear] at hset
    cases hset
  · refine ⟨hrst, ?_⟩
    cases hstep with
    | raised es hes hirq =>
      rw [hirq, getLsbD_withEvents, hclear] at hset
      obtain ⟨e, he, hbit⟩ := hset.resolve_left Bool.false_ne_true
      exact ⟨e, hbit, hes e he⟩
    | acknowledged v _ hirq =>
      rw [hirq, BitVec.getLsbD_and, hclear] at hset
      cases hset
    | cleared _ hirq =>
      rw [hirq, BitVec.ofNat_eq_ofNat, BitVec.getLsbD_zero] at hset
      cases hset

/-- Settles O12: the occasions of `EventOccurs` are those that the statement lists for each bit. -/
theorem eventBitsAreSetOnlyByTheirEvents : Obligations.EventBitsAreSetOnlyByTheirEvents := by
  intro s t k h hclear hset
  obtain ⟨hrst, e, rfl, he⟩ := eventOccurs_of_set h hclear hset
  refine ⟨hrst, ?_⟩
  cases he with
  | txFailed hin hidle hidle' hout => exact .inl ⟨rfl, hidle', .inl ⟨hin, hidle, hout⟩⟩
  | txSent hin hrun hidle' hout => exact .inl ⟨rfl, hidle', .inr (.inl ⟨hin, hrun, hout⟩)⟩
  | txCancelled hin hen hidle' hout =>
    obtain ⟨hrun, habort, hi⟩ := s.cancelEnabled_iff.1 hen
    exact .inl ⟨rfl, hidle', .inr (.inr ⟨hin, hrun, habort, hi, hout⟩)⟩
  | locked v hin hscan hlocked => exact .inr (.inl ⟨rfl, ⟨v, hin⟩, hscan, hlocked⟩)
  | pushed hin hregion hreg hroom e hfifo => exact .inr (.inr (.inl ⟨rfl, hin, hregion, hreg, hroom, e, hfifo⟩))
  | rxFailed hin hidle hidle' hout => exact .inr (.inr (.inr (.inl ⟨rfl, hidle', .inl ⟨hin, hidle, hout⟩⟩)))
  | finished hin hne hidle' hout => exact .inr (.inr (.inr (.inl ⟨rfl, hidle', .inr (.inl ⟨hin, hne, hout⟩)⟩)))
  | aborted hin hne hidle' hout => exact .inr (.inr (.inr (.inl ⟨rfl, hidle', .inr (.inr ⟨hin, hne, hout⟩)⟩)))
  | dropped hin hregion hreg hfull hfifo hovf =>
    exact .inr (.inr (.inr (.inr (.inl ⟨rfl, hin, hregion, hreg, hfull, hfifo, hovf⟩))))
  | refused w hin hword herr => exact .inr (.inr (.inr (.inr (.inr ⟨rfl, herr, w, hin, hword⟩))))

end Sys2Proof.Machine
end

section
/-! PROOF. Totality (R286): every command and every agent's step answers a next state. -/

namespace Sys2Proof.Machine

open Sys2Proof Sys2Proof.Safety

theorem exec_txStart_next (s : State) : ∃ t, exec .txStart s = .next t := by
  cases hst : s.tx.state with
  | run => exact ⟨_, exec_of_refused (.inl ⟨rfl, hst⟩)⟩
  | idle =>
    cases hissue : anyIssue (issuesTx s.params s.settings) with
    | true => exact ⟨_, exec_txStart_of_issue hst hissue⟩
    | false =>
      obtain ⟨-, -, hlevel, -⟩ := (anyIssue_issuesTx s.params s.settings).1 hissue
      obtain ⟨ec, hec⟩ := ecLevelOf_of_noIssue s.settings hlevel
      simp only [exec, execTxStart, hst, hissue, hec, reduceCtorEq, Bool.false_eq_true, if_false]
      split
      · exact ⟨_, rfl⟩
      · exact ⟨_, rfl⟩

theorem exec_rxEnable_next (s : State) : ∃ t, exec .rxEnable s = .next t := by
  by_cases hidle : s.rx.state = .idle
  · cases hissue : anyIssue (issuesRx s.params s.settings) with
    | true => exact ⟨_, exec_rxEnable_of_issue hidle hissue⟩
    | false =>
      obtain ⟨ec, margin, -, -, hsnap⟩ := rxSnap?_of_noIssue _ _ hissue
      simp only [exec, execRxEnable, hidle, hissue, hsnap, ne_eq, not_true, Bool.false_eq_true, if_false]
      exact ⟨_, rfl⟩
  · exact ⟨_, exec_of_refused (.inr (.inl ⟨rfl, hidle⟩))⟩

theorem exec_txAbort_next (s : State) : ∃ t, exec .txAbort s = .next t := by
  cases hst : s.tx.state with
  | run => exact ⟨_, exec_txAbort_run hst⟩
  | idle => exact ⟨_, exec_txAbort_idle hst⟩

theorem exec_rxFinish_next (s : State) : ∃ t, exec .rxFinish s = .next t := by
  by_cases hidle : s.rx.state = .idle
  · exact ⟨_, exec_of_refused (.inr (.inr (.inl ⟨rfl, hidle⟩)))⟩
  · exact ⟨_, exec_rxFinish_of_session hidle⟩

theorem exec_rxAbort_next (s : State) : ∃ t, exec .rxAbort s = .next t := by
  by_cases hidle : s.rx.state = .idle
  · exact ⟨_, exec_rxAbort_idle hidle⟩
  · exact ⟨_, exec_rxAbort_of_session hidle⟩

theorem exec_resPop_next (s : State) : ∃ t, exec .resPop s = .next t := by
  cases hf : s.fifo with
  | nil => exact ⟨_, exec_resPop_of_nil hf⟩
  | cons e rest => exact ⟨_, exec_resPop_of_cons hf⟩

/-- R102, R286: no command faults and none is without a meaning. -/
theorem exec_next (i : Instr) (s : State) : ∃ t, exec i s = .next t := by
  cases i with
  | nop | validateTx | validateRx | softReset => exact ⟨_, rfl⟩
  | txStart => exact exec_txStart_next s
  | txAbort => exact exec_txAbort_next s
  | rxEnable => exact exec_rxEnable_next s
  | rxFinish => exact exec_rxFinish_next s
  | rxAbort => exact exec_rxAbort_next s
  | resPop => exact exec_resPop_next s

/-- R83, R104, R286: a bus error and an illegal word are answered too. -/
theorem hostWrite_next (off : Offset) (width : Nat) (v : Word) (s : State) :
    ∃ t, hostWrite off width v s = .next t := by
  unfold hostWrite
  split
  · exact ⟨_, rfl⟩
  · split
    · unfold issueCommand
      split
      · exact exec_next ..
      · exact ⟨_, rfl⟩
    · exact ⟨_, rfl⟩

theorem agentStep_next (i : Input) (s : State) : ∃ t, agentStep i s = .next t := by
  cases i with
  | hostWrite off width v => exact hostWrite_next off width v s
  | hostRead | sinkReady | txTurn | sourceOffers | resetAssert | resetRelease => exact ⟨_, rfl⟩

theorem step_next (s : State) : ∃ t, step s = .next t := by
  unfold step
  split
  · exact ⟨_, rfl⟩
  · unfold inputStep
    split
    · exact ⟨_, rfl⟩
    · exact agentStep_next ..

/-- Settles O5: a command answers in each of its cases, and every other agent's step is a next state as it stands. -/
theorem everyStepAnswersNext : Obligations.EveryStepAnswersNext := ⟨step_next, exec_next⟩

end Sys2Proof.Machine
end

section
/-! PROOF. The two engines' independence (R291): what the commands of one engine, and its own steps, leave of the other
engine, the settings and the memories. -/

namespace Sys2Proof.Machine

open Sys2Proof Sys2Proof.Safety

theorem State.txByte_congr {s t : State} (hram : t.txRam = s.txRam) (hresets : t.resets = s.resets) (k : Nat) :
    t.txByte k = s.txByte k := by
  rw [State.txByte, hram, hresets, State.txByte]

theorem State.magWord_congr {s t : State} (hmag : t.mag = s.mag) (hresets : t.resets = s.resets) (k : Nat) :
    t.magWord k = s.magWord k := by
  rw [State.magWord, hmag, hresets, State.magWord]

/-- R210, R300: no command writes the MAG buffer or moves `rst_n`. -/
theorem exec_mag_level {i : Instr} {s t : State} (h : exec i s = .next t) :
    t.mag = s.mag ∧ t.rstAsserted = s.rstAsserted :=
  exec_keeps (P := fun u => u.mag = s.mag ∧ u.rstAsserted = s.rstAsserted)
    (refuse := fun _ hs => hs)
    (issues := fun _ _ hs => hs)
    (txFailed := fun _ _ _ _ hs => hs)
    (txStarted := fun _ _ _ _ _ hs => hs)
    (txAbort := fun _ _ hs => hs)
    (rxFailed := fun _ _ hs => hs)
    (rxEnabled := fun _ _ _ _ _ hs => hs)
    (rxFinish := fun _ _ hs => by simpa using hs)
    (rxAbort := fun _ _ hs => hs)
    (pop := fun _ _ _ _ hs => hs)
    (softReset := fun u t h hs => by
      injection h with h
      subst h
      exact hs)
    i s t ⟨rfl, rfl⟩ h

/-- The RX engine, its snapshot and the results of `t` are those of `s`. -/
def sameReceiver (s t : State) : Prop :=
  t.rx = s.rx ∧ t.rxSnap = s.rxSnap ∧ t.fifo = s.fifo ∧ t.resOvf = s.resOvf

/-- R181, R184, R291: the TX commands, the validations and NOP leave the receiver alone. -/
theorem exec_sameReceiver {i : Instr} {s t : State}
    (hi : i = .nop ∨ i = .validateTx ∨ i = .validateRx ∨ i = .txStart ∨ i = .txAbort) (h : exec i s = .next t) :
    sameReceiver s t := by
  rcases hi with rfl | rfl | rfl | rfl | rfl
  · obtain rfl := Host.Outcome.next.inj h
    exact ⟨rfl, rfl, rfl, rfl⟩
  · obtain rfl := Host.Outcome.next.inj h
    exact ⟨rfl, rfl, rfl, rfl⟩
  · obtain rfl := Host.Outcome.next.inj h
    exact ⟨rfl, rfl, rfl, rfl⟩
  · rcases execTxStart_cases h with ⟨-, rfl⟩ | ⟨-, -, rfl⟩ | ⟨ec, -, -, -, ⟨-, rfl⟩ | ⟨-, rfl⟩⟩ <;>
      exact ⟨rfl, rfl, rfl, rfl⟩
  · rcases execTxAbort_cases h with ⟨-, rfl⟩ | ⟨-, rfl⟩ <;> exact ⟨rfl, rfl, rfl, rfl⟩

/-- R128, R201, R260, R261, R291: the RX commands, RES_POP, the validations and NOP leave the transmitter alone. -/
theorem exec_sameTransmitter {i : Instr} {s t : State}
    (hi : i = .nop ∨ i = .validateTx ∨ i = .validateRx ∨ i = .rxEnable ∨ i = .rxFinish ∨ i = .rxAbort ∨ i = .resPop)
    (h : exec i s = .next t) : t.tx = s.tx ∧ t.txSnap = s.txSnap := by
  rcases hi with rfl | rfl | rfl | rfl | rfl | rfl | rfl
  · obtain rfl := Host.Outcome.next.inj h
    exact ⟨rfl, rfl⟩
  · obtain rfl := Host.Outcome.next.inj h
    exact ⟨rfl, rfl⟩
  · obtain rfl := Host.Outcome.next.inj h
    exact ⟨rfl, rfl⟩
  · rcases execRxEnable_cases h with ⟨-, rfl⟩ | ⟨-, -, rfl⟩ | ⟨ec, margin, -, -, -, -, rfl⟩ <;> exact ⟨rfl, rfl⟩
  · rcases execRxFinish_cases h with ⟨-, rfl⟩ | ⟨-, rfl⟩
    · exact ⟨rfl, rfl⟩
    · exact ⟨State.truncateRegion_tx s, State.truncateRegion_txSnap s⟩
  · rcases execRxAbort_cases h with ⟨-, rfl⟩ | ⟨-, rfl⟩ <;> exact ⟨rfl, rfl⟩
  · rcases execResPop_cases h with ⟨-, rfl⟩ | ⟨e, rest, -, rfl⟩ <;> exact ⟨rfl, rfl⟩

/-- R183, R185: the TX engine's turns, with a sink and without one, are TX-EMIT, TX-CANCEL or nothing. -/
theorem step_of_transmitterTurn {s t : State} {rest : List Input}
    (hin : s.inputs = .sinkReady :: rest ∨ s.inputs = .txTurn :: rest) (hrst : s.rstAsserted = false)
    (h : step s = .next t) : t = s.takeInput ∨ t = s.takeInput.txEmit ∨ t = s.takeInput.txCancel := by
  rcases hin with hin | hin <;> rw [step_of_inputs hrst hin, ← State.takeInput_of_inputs hin] at h
  · obtain rfl : sinkTurn s.takeInput = t := Host.Outcome.next.inj h
    exact (ite_eq_or_eq ..).symm.imp_right .inl
  · obtain rfl : cancelTurn s.takeInput = t := Host.Outcome.next.inj h
    exact (ite_eq_or_eq ..).symm.imp_right .inr

/-- Settles O28: each command's frame by its cases, and each engine's steps by the fields they write. -/
theorem enginesAndMemoriesAreIndependent : Obligations.EnginesAndMemoriesAreIndependent := by
  refine ⟨fun i s t h => ?command, fun i s t hi h => exec_sameReceiver hi h,
    fun i s t hi h => exec_sameTransmitter hi h, fun s t v rest hin hrst h => ?sample, fun s t rest hin hrst h => ?turn⟩
  case command =>
    obtain ⟨hparams, hsettings, henable⟩ := exec_sameSetup h
    obtain ⟨hstream, hram, hresets⟩ := exec_stream_payload h
    obtain ⟨hmag, hrst⟩ := exec_mag_level h
    exact ⟨hsettings, henable, hparams, hrst, hstream, State.txByte_congr hram hresets,
      State.magWord_congr hmag hresets⟩
  case sample =>
    obtain rfl := Host.Outcome.next.inj ((step_of_sourceOffers hin hrst).symm.trans h)
    exact ⟨State.rxSample_tx .., State.rxSample_txSnap .., State.rxSample_settings .., State.rxSample_issues ..,
      State.rxSample_cmdErr .., State.rxSample_txStream ..,
      State.txByte_congr (State.rxSample_txRam ..) (State.rxSample_resets ..)⟩
  case turn =>
    rcases step_of_transmitterTurn hin hrst h with rfl | rfl | rfl
    · exact ⟨rfl, rfl, rfl, rfl, rfl, rfl, rfl, fun _ => rfl, fun _ => rfl⟩
    · exact ⟨State.txEmit_rx _, State.txEmit_rxSnap _, State.txEmit_fifo _, State.txEmit_settings _,
        State.txEmit_issues _, State.txEmit_cmdErr _, State.txEmit_resOvf _,
        State.txByte_congr (State.txEmit_txRam _) (State.txEmit_resets _),
        State.magWord_congr (State.txEmit_mag _) (State.txEmit_resets _)⟩
    · exact ⟨rfl, rfl, rfl, rfl, rfl, rfl, rfl, fun _ => rfl, fun _ => rfl⟩

end Sys2Proof.Machine
end

section
/-! PROOF. The result FIFO (R58, R128, R258, R312): every step but RES_POP, SOFT_RESET and reset leaves what it holds in
place, in its order, and at most appends to it. -/

namespace Sys2Proof.Machine

open Sys2Proof Sys2Proof.Safety

/-- What the FIFO holds in `s` it holds in `t`, in its order, with at most further results behind it. -/
def KeepsResults (s t : State) : Prop := ∃ added, t.fifo = s.fifo ++ added

theorem keepsResults_of_eq {s t : State} (h : t.fifo = s.fifo) : KeepsResults s t := ⟨[], by rw [h, List.append_nil]⟩

/-- R258: a region that ends appends its result, or drops it where the FIFO is full. -/
theorem EndsRegion.keepsResults {s t : State} (h : EndsRegion s t) : KeepsResults s t := by
  obtain ⟨-, u, sn, r, code, reason, c, p, hsame, -, rfl⟩ := h
  have hfifo := endRegion_fifo u sn r code reason c p
  rw [hsame.fifo] at hfifo
  split at hfifo
  · exact ⟨_, hfifo⟩
  · exact keepsResults_of_eq hfifo

theorem rxSample_keepsResults (s : State) (v : Sample) : KeepsResults s (s.rxSample v) := by
  cases rxSample_effect s v with
  | quiet hsame => exact keepsResults_of_eq hsame.fifo
  | locked _ u sn t0 c0 hsame ht => exact keepsResults_of_eq (by rw [ht, State.lock_fifo, hsame.fifo])
  | ended hend => exact hend.keepsResults

theorem truncateRegion_keepsResults (s : State) : KeepsResults s s.truncateRegion := by
  rcases truncateRegion_effect s with hend | h
  · exact hend.keepsResults
  · exact keepsResults_of_eq (by rw [h])

/-- R128, R129: RES_POP and SOFT_RESET are the commands that take results out of the FIFO. -/
theorem exec_keepsResults {i : Instr} {s t : State} (hpop : i ≠ .resPop) (hclear : i ≠ .softReset)
    (h : exec i s = .next t) : KeepsResults s t := by
  cases i with
  | resPop => exact absurd rfl hpop
  | softReset => exact absurd rfl hclear
  | nop | txStart | txAbort | validateTx | validateRx =>
    obtain ⟨-, -, hfifo, -⟩ := exec_sameReceiver (by decide) h
    exact keepsResults_of_eq hfifo
  | rxEnable =>
    rcases execRxEnable_cases h with ⟨-, rfl⟩ | ⟨-, -, rfl⟩ | ⟨ec, margin, -, -, -, -, rfl⟩
    · exact keepsResults_of_eq rfl
    · exact keepsResults_of_eq rfl
    · exact keepsResults_of_eq rfl
  | rxFinish =>
    rcases execRxFinish_cases h with ⟨-, rfl⟩ | ⟨-, rfl⟩
    · exact keepsResults_of_eq rfl
    · exact truncateRegion_keepsResults s
  | rxAbort =>
    rcases execRxAbort_cases h with ⟨-, rfl⟩ | ⟨-, rfl⟩
    · exact keepsResults_of_eq rfl
    · exact keepsResults_of_eq rfl

/-- What comes next can take results out of the FIFO: RES_POP, SOFT_RESET or reset, `rst_n` not being asserted yet. -/
def TakesResults (s : State) : Prop :=
  s.rstAsserted = false ∧
    (s.inputs.head? = some (.hostWrite 0x008 4 0x13) ∨ s.inputs.head? = some (.hostWrite 0x008 4 0xA5) ∨
      s.inputs.head? = some .resetAssert)

/-- R312: every step keeps the results in the FIFO, or it is one of those that take results out. -/
theorem step_keepsResults {s t : State} (h : step s = .next t) : KeepsResults s t ∨ TakesResults s := by
  rcases step_cases h with rfl | ⟨-, rfl⟩ | ⟨hrst, ⟨-, -, rfl⟩ | ⟨p, rfl⟩ | ⟨w, -, -, rfl⟩ | ⟨w, i, hin, hdecode, he⟩ |
    ⟨off, v, -, -, -, rfl⟩ | ⟨-, -, rfl⟩ | ⟨v, -, rfl⟩ | ⟨hin, rfl⟩⟩
  · exact .inl (keepsResults_of_eq rfl)
  · exact .inl (keepsResults_of_eq rfl)
  · exact .inl (keepsResults_of_eq rfl)
  · exact .inl (keepsResults_of_eq rfl)
  · exact .inl (keepsResults_of_eq rfl)
  · obtain rfl := (decode_eq_ok_iff_eq_encode w i).1 hdecode
    rcases eq_or_ne i .resPop with rfl | hpop
    · exact .inr ⟨hrst, .inl hin⟩
    rcases eq_or_ne i .softReset with rfl | hclear
    · exact .inr ⟨hrst, .inr (.inl hin)⟩
    · exact .inl (exec_keepsResults (s := { s.takeInput with port := .written }) hpop hclear he)
  · exact .inl (keepsResults_of_eq (State.portWrite_fifo ..))
  · exact .inl (keepsResults_of_eq (State.txEmit_fifo _))
  · exact .inl (rxSample_keepsResults s.takeInput v)
  · exact .inr ⟨hrst, .inr (.inr hin)⟩

/-- Settles O15: a step that keeps the results in the FIFO keeps their head. -/
theorem resultHeadIsStable : Obligations.ResultHeadIsStable := by
  intro s t e rest h hfifo
  refine (step_keepsResults h).imp_left fun ⟨added, hadded⟩ => ?_
  exact ⟨rest ++ added, by rw [hadded, hfifo, List.cons_append]⟩

end Sys2Proof.Machine
end

section
/-! PROOF. Reset (R300 to R302, R305): the values the registers read after the reset step, what a step does while `rst_n`
stays asserted, and the base case of the invariants. -/

namespace Sys2Proof.Machine

open Sys2Proof Sys2Proof.Safety

/-! The reset step (R300, R301). -/

theorem reset_readReg {r : Reg} {v : Word} (h : (r, v) ∈ resetValues) : State.reset.readReg r = v := by
  have htable : ∀ p ∈ resetValues, State.reset.readReg p.1 = p.2 := by decide
  exact htable (r, v) h

/-- R300: after the reset step a register reads as in the reset state, but for the parameters, which are the
implementation's. -/
theorem State.hardReset_readReg (s : State) {r : Reg} (h0 : r ≠ .params0) (h1 : r ≠ .params1) :
    s.hardReset.readReg r = State.reset.readReg r := by
  cases r with
  | params0 => exact absurd rfl h0
  | params1 => exact absurd rfl h1
  | _ => rfl

theorem not_params_of_mem_resetValues {r : Reg} {v : Word} (h : (r, v) ∈ resetValues) :
    r ≠ .params0 ∧ r ≠ .params1 := by
  have htable : ∀ p ∈ resetValues, p.1 ≠ .params0 ∧ p.1 ≠ .params1 := by decide
  exact htable (r, v) h

theorem step_of_resetAssert {s : State} {rest : List Input} (hin : s.inputs = .resetAssert :: rest)
    (hrst : s.rstAsserted = false) : step s = .next s.takeInput.hardReset := by
  rw [step_of_inputs hrst hin, State.takeInput_of_inputs hin]
  rfl

/-! `rst_n` asserted (R300, R305). -/

/-- While `rst_n` is asserted an input does nothing but, if it is the release, release it. -/
theorem heldInReset_eq (i : Input) (s : State) (hrst : s.rstAsserted = true) :
    heldInReset i s = { s with rstAsserted := decide (i ≠ .resetRelease) } := by
  cases i with
  | resetRelease => rfl
  | hostWrite | hostRead | sinkReady | txTurn | sourceOffers | resetAssert =>
    rw [heldInReset]
    simp [← hrst]

theorem step_of_rstAsserted {s : State} {i : Input} {rest : List Input} (hin : s.inputs = i :: rest)
    (hrst : s.rstAsserted = true) :
    step s = .next { s with inputs := rest, port := .none, rstAsserted := decide (i ≠ .resetRelease) } := by
  have hheld : step s = .next (heldInReset i s.takeInput) := by
    simp only [step, hin, inputStep, State.takeInput_rstAsserted, hrst, if_true]
  rw [hheld, heldInReset_eq i s.takeInput hrst, State.takeInput_of_inputs hin]

/-! The reset settings (R301). -/

/-- R301: the reset settings are legal for both engines. -/
theorem issues_reset :
    issuesTx Params.thisHardware Settings.reset = 0 ∧ issuesRx Params.thisHardware Settings.reset = 0x80000000 := by
  decide

/-- Settles O13: the reset step writes State.reset's values, and the reset state reads as the map's table says. -/
theorem resetStepRestoresEveryRegister : Obligations.ResetStepRestoresEveryRegister := by
  obtain ⟨htx, hrx⟩ := issues_reset
  refine ⟨fun s rest hin hrst => ?reset, fun s i rest hin hrst => step_of_rstAsserted hin hrst,
    fun r v h => reset_readReg h, by decide, by decide, ?legalTx, ?legalRx⟩
  case reset =>
    refine ⟨s.takeInput.hardReset, step_of_resetAssert hin hrst, rfl, rfl, fun r v h => ?_, rfl, rfl, rfl, rfl, rfl,
      rfl, rfl, State.irq_of_irqStatus_eq_zero rfl, rfl⟩
    obtain ⟨h0, h1⟩ := not_params_of_mem_resetValues h
    rw [State.hardReset_readReg _ h0 h1, reset_readReg h]
  case legalTx =>
    show Host.Outcome.next { State.reset with issues := issuesTx Params.thisHardware Settings.reset } = _
    rw [htx]
    rfl
  case legalRx =>
    show Host.Outcome.next { State.reset with issues := issuesRx Params.thisHardware Settings.reset } = _
    rw [hrx]

/-! The base case of the invariants (R283, R300). -/

theorem reset_memoriesOk : MemoriesOk State.reset := ⟨rfl, nofun, rfl, nofun⟩

theorem reset_inv : Inv State.reset :=
  ⟨by decide, reset_memoriesOk, ⟨by decide, by decide⟩, ⟨rfl, rfl, nofun⟩, resultsOk_of_fifo_nil rfl,
    transmissionOk_idle rfl rfl fun _ => rfl, sessionOk_idle rfl rfl⟩

/-- Settles O60: both engines are idle without an outcome, the memories and the FIFO are empty, no event is pending. -/
theorem resetStateMeetsTheInvariant : Obligations.ResetStateMeetsTheInvariant :=
  ⟨reset_inv, streamOk_none_sent rfl (by decide) (by decide), State.irq_of_irqStatus_eq_zero rfl⟩

end Sys2Proof.Machine
end
